-- ==== Sys2Proof/Word.lean ====
section
/-! DEFINITION. The words of IRENC: register words, Frame bytes, host addresses, and the fixed sizes. -/

namespace Sys2Proof

/-- A 32-bit word: a command word (R70), a host register word (R50), a duration (R10, DUR_W = 32) or
an emitter handle or status code in two's complement (R10). -/
abbrev Word := BitVec 32

/-- One Frame byte: eight symbols. Bit `s` is symbol `s`, the `s`-th symbol transmitted (R12); the host
sees a Frame byte as exactly this word (R53). Log entry 9. -/
abbrev Byte := BitVec 8

/-- A host word address (R50: 12 bits). -/
abbrev Addr := BitVec 12

/-- A Frame: 18 bytes of 8 symbols (R8, R21). `FRAME[b][s]` is bit `s` of entry `b`. -/
abbrev Frame := Vector Byte 18

/-- A Data segment: 288 durations (R8, R27). -/
abbrev DataSegment := Vector Word 288

/-- The handle array: 384 entries (R10, R33). -/
abbrev HandleArray := Vector Word 384

end Sys2Proof
end

