-- ==== Sys2Proof/Config.lean ====
section
/-! DEFINITION. The configuration record CFG (R9): what a build fixes and the spec leaves open. -/

namespace Sys2Proof

/-- `CFG.FIELD_MAP` (R25): the symbol offset of each settings field inside its byte. The bytes and the
widths are fixed by the spec (Machine/Operands.lean). -/
structure FieldMap where
  powerOff : Nat
  modeAOff : Nat
  tempOff  : Nat
  modeBOff : Nat
  fanOff   : Nat
  dirOff   : Nat
deriving DecidableEq, Repr

/-- `CFG.TIMING` (R26): the timing look-up table, seven unsigned 32-bit durations. -/
structure Timing where
  hdrOn   : Word
  hdrOff  : Word
  bitOn   : Word
  zeroOff : Word
  oneOff  : Word
  rptOn   : Word
  rptOff  : Word
deriving DecidableEq, Repr

/-- The raw configuration record of R9, before its checks. `timeUnit` only names the physical unit of one
duration count: no rule depends on it (log entry 8). -/
structure Params where
  template : Frame
  fieldMap : FieldMap
  timing   : Timing
  timeUnit : Option String
deriving DecidableEq, Repr

/-- Check `fm_fits` (R25): every field lies inside its byte of 8 symbols. -/
def FieldMap.fits (m : FieldMap) : Bool :=
  decide (m.powerOff + 1 ≤ 8) && decide (m.modeAOff + 2 ≤ 8) && decide (m.tempOff + 4 ≤ 8) &&
  decide (m.modeBOff + 2 ≤ 8) && decide (m.fanOff + 2 ≤ 8) && decide (m.dirOff + 3 ≤ 8)

/-- Check `fm_disjoint9` (R25): the fan-speed and fan-direction ranges share no position of byte 9. -/
def FieldMap.disjoint9 (m : FieldMap) : Bool :=
  decide (m.fanOff + 2 ≤ m.dirOff) || decide (m.dirOff + 3 ≤ m.fanOff)

/-- Check `tm_one_gt_zero` (R26). -/
def Timing.oneGtZero (t : Timing) : Bool := decide (t.zeroOff.toNat < t.oneOff.toNat)

/-- Check `tm_zero_gt_sep` (R26). -/
def Timing.zeroGtSep (t : Timing) : Bool := decide (t.bitOn.toNat < t.zeroOff.toNat)

/-- All four named checks (R233, item 1). -/
def Params.wf (p : Params) : Bool :=
  p.fieldMap.fits && p.fieldMap.disjoint9 && p.timing.oneGtZero && p.timing.zeroGtSep

/-- A configuration that passes every check: the only kind an IRENC is built from (R25, I25). The default
values only show that there is one; nothing else uses them (log entry 7). -/
structure Cfg where
  params : Params :=
    { template := Vector.replicate 18 0#8, fieldMap := ⟨0, 0, 0, 0, 0, 2⟩, timing := ⟨0, 0, 0, 1, 2, 0, 0⟩,
      timeUnit := none }
  wf : params.wf = true := by decide
deriving DecidableEq, Repr, Inhabited

/-- The configuration of the build that `State.reset` describes. OPEN (R9, D11 to D14): it has no body, so
nothing can be proved of its values but what every `Cfg` satisfies. -/
opaque Config.cfg : Cfg

end Sys2Proof
end

