-- ==== Sys2Proof/Syntax.lean ====
section
/-! DEFINITION. The commands of IRENC (opcode_table.json, R76), and the abstract lines of its assembler (R79, R80). -/

namespace Sys2Proof

/-- The five commands. Operands are the command word's fields, codes as given (R72, R73, R75): every value of
every field is a legal operand. -/
inductive Instr where
  /-- ENCODE (R100): build the Frame from settings. -/
  | encode (power : BitVec 2) (mode fan dir : BitVec 3) (temp : BitVec 8)
  /-- CHECKSUM (R130): recompute byte 17. -/
  | checksum
  /-- TRANSLATE (R140): build the Data segment. -/
  | translate
  /-- SEQUENCE (R150): fix the repeat count. -/
  | sequence (rep : BitVec 8)
  /-- EMIT (R170): send the schedule through the emitter. -/
  | emit
deriving DecidableEq, Repr

/-- The power names of the assembler (R79, codes of R104). -/
inductive PowerName where
  | off | on
deriving DecidableEq, Repr

/-- The mode names (R79, codes of R105). -/
inductive ModeName where
  | heat | dry | cold | auto
deriving DecidableEq, Repr

/-- The fan-speed names (R79, codes of R108). -/
inductive FanName where
  | auto | low | middle | high
deriving DecidableEq, Repr

/-- The fan-direction names (R79, codes of R109). -/
inductive DirName where
  | auto | lowest | low | middle | high | highest | loop
deriving DecidableEq, Repr

/-- An enumerated operand as the assembler reads it: a name or a code number (R79). -/
inductive EnumOperand (α : Type) where
  | name (n : α)
  | code (k : Nat)
deriving DecidableEq, Repr

/-- The settings operands of an `ENCODE` or `SEND` line, in the order of R79. -/
structure AsmSettings where
  power : EnumOperand PowerName
  mode  : EnumOperand ModeName
  temp  : Int
  fan   : EnumOperand FanName
  dir   : EnumOperand DirName
deriving DecidableEq, Repr

/-- One line of a command program: the five commands, `.word` (R79) and the pseudo-instructions (R80). -/
inductive AsmLine where
  | encode (st : AsmSettings)
  | checksum
  | translate
  | sequence (r : Int)
  | emit
  | word (w : Nat)
  | send (st : AsmSettings) (r : Int)
  | resend (r : Int)
  | verify
deriving DecidableEq, Repr

end Sys2Proof
end

