-- ==== Sys2Proof/WellFormed.lean ====
section
/-! DEFINITION. Well-formedness: of instructions, of assembler lines (R79: out-of-range operands are refused), of configurations (R25, R26). -/

namespace Sys2Proof

/-- Every term of `Instr` is well formed: its operand types are exactly the fields of R72 and R73, and every
value of every field is a legal operand (R75). -/
def Instr.wf (_i : Instr) : Bool := true

/-- The named checks of an assembler line (R79): one per operand range. -/
inductive AsmCheck where
  | powerRange | modeRange | tempRange | fanRange | dirRange | repRange | wordRange
deriving DecidableEq, Repr

/-- A code operand must lie below the field's number of codes; a name always does (R79). -/
def EnumOperand.inRange {α : Type} (n : Nat) : EnumOperand α → Bool
  | .name _ => true
  | .code k => decide (k < n)

/-- An 8-bit two's-complement operand (R79: a decimal integer −128..127). -/
def inRange8 (v : Int) : Bool := decide (-128 ≤ v) && decide (v ≤ 127)

/-- The checks a settings operand list fails, in operand order. -/
def AsmSettings.failed (st : AsmSettings) : List AsmCheck :=
  (if st.power.inRange 4 then [] else [.powerRange]) ++ (if st.mode.inRange 8 then [] else [.modeRange]) ++
  (if inRange8 st.temp then [] else [.tempRange]) ++ (if st.fan.inRange 8 then [] else [.fanRange]) ++
  (if st.dir.inRange 8 then [] else [.dirRange])

/-- The repeat-count check. -/
def repFailed (r : Int) : List AsmCheck := if inRange8 r then [] else [.repRange]

/-- The checks an assembler line fails (R79): empty for a well-formed line. -/
def AsmLine.failed : AsmLine → List AsmCheck
  | .encode st => st.failed
  | .checksum => []
  | .translate => []
  | .sequence r => repFailed r
  | .emit => []
  | .word w => if w < 2 ^ 32 then [] else [.wordRange]
  | .send st r => st.failed ++ repFailed r
  | .resend r => repFailed r
  | .verify => []

/-- A line the assembler accepts. -/
def AsmLine.wf (l : AsmLine) : Bool := l.failed.isEmpty

/-- The named checks of a configuration (R25, R26). -/
inductive CfgCheck where
  | fmFits | fmDisjoint9 | tmOneGtZero | tmZeroGtSep
deriving DecidableEq, Repr

/-- The first check a configuration record fails, `none` for a record an IRENC can be built from (R233). -/
def Params.firstFailed (p : Params) : Option CfgCheck :=
  if p.fieldMap.fits = false then some .fmFits
  else if p.fieldMap.disjoint9 = false then some .fmDisjoint9
  else if p.timing.oneGtZero = false then some .tmOneGtZero
  else if p.timing.zeroGtSep = false then some .tmZeroGtSep
  else none

end Sys2Proof
end

