-- ==== Sys2Proof/Machine/State.lean ====
section
/-! DEFINITION. The state of IRENC (10_state.md), the inputs of its environment, and the state after reset. -/

namespace Sys2Proof.Machine

/-- EMIT_PHASE (R32): the emitter request the core is waiting on. -/
inductive Phase where
  | idle | waitReset | waitStage | waitTx
deriving DecidableEq, Repr

/-- The STATUS.ERR codes that are ever produced (R201). Codes 6 to 15 are reserved and never produced. -/
inductive ErrCode where
  | none | illegal | nodata | nosched | negRepeat | stageFail
deriving DecidableEq, Repr

/-- A request of the core on the emitter channel (R171). -/
inductive Request where
  /-- `reset()`: no payload. -/
  | reset
  /-- `stage(L)`: the durations of one segment instance. -/
  | stage (durations : List Word)
  /-- `transmit(H)`: the handles in emission order. -/
  | transmit (handles : List Word)
deriving DecidableEq, Repr

/-- An answer of the emitter (R171): an acknowledgement, a handle or negative code, a status. Its value is a
draw (R7, R179): the environment's list may hold any. -/
inductive Answer where
  | ack
  | handle (h : Word)
  | status (st : Word)
deriving DecidableEq, Repr

/-- An answer as it arrives: `req` is the number of the request it answers, counted in the emitter trace from
0 (log entry 4). An answer to a request issued before a reset (R231) is one whose number is not that of the
outstanding request. -/
structure Reply where
  req    : Nat
  answer : Answer
deriving DecidableEq, Repr

/-- What the environment does in one step (log entry 2): it may assert reset, and an emitter answer may
arrive. A command offered on the port is in `State.port`. -/
structure Turn where
  reset : Bool := false
  reply : Option Reply := none
deriving DecidableEq, Repr

/-- The machine. The fields up to `handles` are the registers of R20; STATUS is the view of them that
Machine/Flags.lean computes, and holds of its own only EMIT_DONE, ERR_SEEN and ERR (R30). `cfg` is the build's
configuration: no step changes it. The last four fields are the boundary: what the host offers, what the
environment does, what the emitter was asked, what it holds. -/
structure State where
  /-- SETTINGS (R22). -/
  settings   : Word
  /-- FRAME (R21). -/
  frame      : Frame
  /-- CSUM (R23). -/
  csum       : Byte
  /-- DATA (R27). -/
  data       : DataSegment
  /-- SCHED_R (R28), two's complement. -/
  schedR     : BitVec 8
  /-- FRAME_V (R29). -/
  frameV     : Bool
  /-- DATA_V (R29). -/
  dataV      : Bool
  /-- SCHED_V (R29). -/
  schedV     : Bool
  /-- STATUS.EMIT_DONE (R30). -/
  emitDone   : Bool
  /-- STATUS.ERR_SEEN (R30). -/
  errSeen    : Bool
  /-- STATUS.ERR (R30, R201). -/
  err        : ErrCode
  /-- EMIT_PHASE (R32). -/
  emitPhase  : Phase
  /-- EMIT_IDX (R32). -/
  emitIdx    : BitVec 9
  /-- EMIT_RESULT (R32), two's complement. -/
  emitResult : Word
  /-- HANDLES (R33), two's complement. -/
  handles    : HandleArray
  /-- CFG (R9): fixed at build. -/
  cfg        : Cfg
  /-- The command words the host has still to issue, in order; the first is the one on the command port
  (R34, R78, R237; log entry 1). -/
  port       : List Word
  /-- What the environment does in the steps to come, one entry a step; past its end nothing arrives
  (log entry 2). -/
  turns      : List Turn
  /-- The emitter trace (R178): every request the core has issued, oldest first (log entry 5). -/
  trace      : List Request
  /-- The emitter's staged definitions (R35 (b)), oldest first, each with the handle answered for it
  (log entries 6 and 21). -/
  staged     : List (Word × List Word)
deriving DecidableEq, Repr

/-- A fault stops the machine. IRENC has none: it has no trap (R200), and every error is a status code in a
next state. The type has no constructor. -/
inductive Fault where
deriving DecidableEq, Repr

/-- A refusal: no meaning. -/
inductive Refusal where
  /-- Raised by an arm of `exec` for an instruction without a meaning; no arm raises it. Safe. -/
  | notModelled (mnemonic : String)
  /-- Raised by `Machine.build`, and by no step: a configuration record that fails the named check describes
  no IRENC (R25, I25). Safe. -/
  | badConfig (check : CfgCheck)
deriving DecidableEq, Repr

/-- The state right after reset of the IRENC built from `c` (R37): every register zero, EMIT_PHASE IDLE, ERR
NONE; nothing offered, nothing to arrive, nothing asked of the emitter, nothing staged. -/
def State.afterReset (c : Cfg) : State where
  settings   := 0#32
  frame      := Vector.replicate 18 0#8
  csum       := 0#8
  data       := Vector.replicate 288 0#32
  schedR     := 0#8
  frameV     := false
  dataV      := false
  schedV     := false
  emitDone   := false
  errSeen    := false
  err        := .none
  emitPhase  := .idle
  emitIdx    := 0#9
  emitResult := 0#32
  handles    := Vector.replicate 384 0#32
  cfg        := c
  port       := []
  turns      := []
  trace      := []
  staged     := []

/-- The machine right after reset (R37), in the build's configuration, which is OPEN. -/
def State.reset : State := State.afterReset Config.cfg

end Sys2Proof.Machine
end

