-- ==== Sys2Proof/Machine/Operands.lean ====
section
/-! DEFINITION. Operand forms: the settings fields of the Frame (R25) and the symbol patterns of each operand (R104 to R109). -/

namespace Sys2Proof.Machine

/-- The six settings fields (R25). -/
inductive Field where
  | power | modeA | temp | modeB | fan | dir
deriving DecidableEq, Repr

/-- `byte_F` (R25): the Frame byte a field stands in. -/
def byteOf : Field → Fin 18
  | .power => 5
  | .modeA => 6
  | .temp  => 7
  | .modeB => 8
  | .fan   => 9
  | .dir   => 9

/-- `w_F` (R25): the field's width in symbols. -/
def widthOf : Field → Nat
  | .power => 1
  | .modeA => 2
  | .temp  => 4
  | .modeB => 2
  | .fan   => 2
  | .dir   => 3

/-- `off_F` (R25): the field's first symbol, from CFG.FIELD_MAP. -/
def offOf (m : FieldMap) : Field → Nat
  | .power => m.powerOff
  | .modeA => m.modeAOff
  | .temp  => m.tempOff
  | .modeB => m.modeBOff
  | .fan   => m.fanOff
  | .dir   => m.dirOff

/-- A pattern: symbols in transmission order, the first one first (R14). -/
abbrev Pattern := List Bool

/-- `PowerPat` (R104): 1 for on, 0 for off and for every unrecognized code. -/
def powerPat (p : BitVec 2) : Pattern :=
  match p.toNat with
  | 1 => [true]
  | _ => [false]

/-- `ModeA` (R105). -/
def modeAPat (m : BitVec 3) : Pattern :=
  match m.toNat with
  | 0 => [true, false]
  | 1 => [false, true]
  | _ => [true, true]

/-- `ModeB` (R106), a table of its own. -/
def modeBPat (m : BitVec 3) : Pattern :=
  match m.toNat with
  | 0 => [false, false]
  | 1 => [true, false]
  | _ => [true, true]

/-- `TempPat` (R107), on the integer temperature: the offset `t − 16`, most significant bit first, in range;
the fallback `0110` outside. -/
def tempPat (t : Int) : Pattern :=
  if 16 ≤ t ∧ t ≤ 31 then
    let o := (t - 16).toNat
    [o.testBit 3, o.testBit 2, o.testBit 1, o.testBit 0]
  else [false, true, true, false]

/-- `FanPat` (R108). -/
def fanPat (f : BitVec 3) : Pattern :=
  match f.toNat with
  | 0 => [false, false]
  | 1 => [true, false]
  | 2 => [false, true]
  | 3 => [true, true]
  | _ => [false, false]

/-- `DirPat` (R109). -/
def dirPat (d : BitVec 3) : Pattern :=
  match d.toNat with
  | 0 => [false, false, false]
  | 1 => [true, false, false]
  | 2 => [false, true, false]
  | 3 => [true, true, false]
  | 4 => [false, false, true]
  | 5 => [false, true, true]
  | 6 => [true, true, true]
  | _ => [false, false, false]

/-- The temperature operand as an integer: `sext_8` (R75). -/
def tempOf (temp : BitVec 8) : Int := temp.toInt

/-- The repeat-count operand, and SCHED_R, as an integer: `sext_8` (R75, R28). -/
def repOf (rep : BitVec 8) : Int := rep.toInt

/-- The bits of an ENCODE word that SETTINGS keeps (R22, R100): all its operand fields. -/
def settingsMask : Word := 0x00FF7FF0#32

end Sys2Proof.Machine
end

