-- ==== Sys2Proof/Machine/Flags.lean ====
section
/-! DEFINITION. STATUS (R30) and what it is made of: BUSY, the error codes, the phase code. IRENC has no arithmetic flags (R31). -/

namespace Sys2Proof.Machine

/-- The number of an error code (R201). -/
def errNumber : ErrCode → BitVec 4
  | .none      => 0#4
  | .illegal   => 1#4
  | .nodata    => 2#4
  | .nosched   => 3#4
  | .negRepeat => 4#4
  | .stageFail => 5#4

/-- The number of a phase (R32). -/
def phaseNumber : Phase → BitVec 2
  | .idle      => 0#2
  | .waitReset => 1#2
  | .waitStage => 2#2
  | .waitTx    => 3#2

/-- STATUS.BUSY (R30): an EMIT is in progress. -/
def State.busy (s : State) : Bool := s.emitPhase != .idle

/-- The command-port ready signal (R35 (a), R78). -/
def State.cmdReady (s : State) : Bool := !s.busy

/-- The STATUS word (R30): bit 0 BUSY, 1 FRAME_V, 2 DATA_V, 3 SCHED_V, 4 EMIT_DONE, 5 ERR_SEEN, [7:6]
EMIT_PHASE, [11:8] ERR, [31:12] zero. -/
def State.status (s : State) : Word :=
  0#20 ++ errNumber s.err ++ phaseNumber s.emitPhase ++ BitVec.ofBool s.errSeen ++ BitVec.ofBool s.emitDone ++
    BitVec.ofBool s.schedV ++ BitVec.ofBool s.dataV ++ BitVec.ofBool s.frameV ++ BitVec.ofBool s.busy

end Sys2Proof.Machine
end

