-- ==== Sys2Proof/Machine/Ops.lean ====
section
/-! DEFINITION. The shared operations: symbols and fields of a Frame (R12 to R15), raising an error code (R202), requests on the emitter channel (R171), reset (R230). -/

namespace Sys2Proof.Machine

/-- Symbol `s` of a byte (R12). -/
def symbol (b : Byte) (s : Nat) : Bool := b.getLsbD s

/-- A byte with symbol `s` written: `FRAME[b][s] <- v` (R15). -/
def setSymbol (b : Byte) (s : Nat) (v : Bool) : Byte :=
  if v then b ||| BitVec.twoPow 8 s else b &&& ~~~(BitVec.twoPow 8 s)

/-- A byte with the pattern `p` written from symbol `off` on. -/
def putSymbols (off : Nat) : Pattern → Byte → Byte
  | [], b => b
  | v :: vs, b => putSymbols (off + 1) vs (setSymbol b off v)

/-- `put(F, p)` (R15): the pattern `p` written into field `F`. -/
def put (m : FieldMap) (f : Field) (p : Pattern) (fr : Frame) : Frame :=
  fr.set (byteOf f) (putSymbols (offOf m f) p fr[byteOf f])

/-- `num(B)` (R13): the first transmitted symbol is least significant. -/
def num (b : Byte) : Nat := ((List.range 8).map (fun s => if symbol b s then 2 ^ s else 0)).sum

/-- `sym8(v)` (R13): symbol `s` is bit `s` of `v`. -/
def sym8 (v : Nat) : Byte := BitVec.ofNat 8 v

/-- The sum of the numeric values of bytes 0 to 16 (R131). -/
def sum17 (fr : Frame) : Nat := ((fr.toList.take 17).map num).sum

/-- `Checksum17` (R131): the sum modulo 256. Byte 17 never enters its own sum. -/
def checksum17 (fr : Frame) : Nat := sum17 fr % 256

/-- A Frame with byte 17 filled from bytes 0 to 16 (R102, R130). -/
def fillChecksum (fr : Frame) : Frame := fr.set 17 (sym8 (checksum17 fr))

/-- The state after `raise Reject(code)` (R15, R202): ERR takes the code, ERR_SEEN is set, nothing else
changes. IRENC has no trap (R200): nothing is saved, no control is transferred, and there is nothing to return
from (R209). -/
def State.raise (code : ErrCode) (s : State) : State := { s with err := code, errSeen := true }

/-- `raise Reject(code)` as the end of a command. -/
def reject (code : ErrCode) (s : State) : Host.Outcome State Fault Refusal := .next (s.raise code)

/-- A request issued on the emitter channel (R171): it is recorded in the trace (R178). `reset` empties the
emitter's set of staged definitions (R35 (b), log entry 6). -/
def State.request (r : Request) (s : State) : State :=
  { s with trace := s.trace ++ [r], staged := if r = .reset then [] else s.staged }

/-- EMIT_PHASE written (R32). -/
def State.inPhase (p : Phase) (s : State) : State := { s with emitPhase := p }

/-- The command port with the words `ws` on it. -/
def State.withPort (ws : List Word) (s : State) : State := { s with port := ws }

/-- The number of the outstanding request, where there is one (R171): while an EMIT is in progress the last
request issued is unanswered. -/
def State.outstanding (s : State) : Option Nat :=
  if s.busy then some (s.trace.length - 1) else none

/-- Reset of IRENC (R230, R231): every register at its reset value. CFG is unaffected; no request is issued,
and what the emitter was asked and holds stays (a `stage` still outstanding adds nothing, now or later: DESIGN CHOICE,
log entry 21); the host's command port and the environment are not IRENC's. -/
def State.applyReset (s : State) : State :=
  { State.afterReset s.cfg with port := s.port, turns := s.turns, trace := s.trace, staged := s.staged }

/-- Building an IRENC (R233, I25): a configuration record that fails a check is refused by the check's name;
one that passes gives the machine right after reset. -/
def build (p : Params) : Host.Outcome State Fault Refusal :=
  if h : p.wf = true then .next (State.afterReset ⟨p, h⟩)
  else .refused (.badConfig (p.firstFailed.getD .fmFits))

end Sys2Proof.Machine
end

