-- ==== Sys2Proof/Machine/Checksum.lean ====
section
/-! DEFINITION. The Checksum Calculator: CHECKSUM (41_checksum.md). -/

namespace Sys2Proof.Machine

/-- CHECKSUM (R130): byte 17 and CSUM from bytes 0 to 16; no valid bit changes (R132). -/
def execChecksum (s : State) : Host.Outcome State Fault Refusal :=
  .next { s with frame := fillChecksum s.frame, csum := sym8 (checksum17 s.frame), err := .none }

end Sys2Proof.Machine
end

