-- ==== Sys2Proof/Machine/Sequencer.lean ====
section
/-! DEFINITION. The Transmission Sequencer: SEQUENCE, and the schedule as a function (43_sequencer.md). -/

namespace Sys2Proof.Machine

/-- A segment kind (R154). TRAILER and SPACER have the same durations and differ in kind (R157). -/
inductive SegKind where
  | header | dataSeg | spacer | trailer
deriving DecidableEq, Repr

/-- One round of the repeat loop of R152, for loop index `i` of a repeat count `r`. -/
def segmentRound (r i : Nat) : List SegKind :=
  [.header, .dataSeg] ++ if i < r then [.spacer] else []

/-- `Segments(r)` (R152): the loop for `i = 0` to `r` inclusive, then one TRAILER. -/
def segments (r : Nat) : List SegKind :=
  (List.range (r + 1)).flatMap (segmentRound r) ++ [.trailer]

/-- `Segments(r)[k]` in the closed form of R152. -/
def segmentAt (r k : Nat) : SegKind :=
  if k = 3 * r + 2 then .trailer
  else if k % 3 = 0 then .header
  else if k % 3 = 1 then .dataSeg
  else .spacer

/-- `Dur(kind)` (R154). -/
def dur (tm : Timing) (data : DataSegment) : SegKind → List Word
  | .header  => [tm.hdrOn, tm.hdrOff]
  | .dataSeg => data.toList
  | .spacer  => [tm.rptOn, tm.rptOff]
  | .trailer => [tm.rptOn, tm.rptOff]

/-- `Schedule(DATA, r)` (R152). -/
def schedule (tm : Timing) (data : DataSegment) (r : Nat) : List Word := (segments r).flatMap (dur tm data)

/-- The repeat count of the current schedule, `r = sext_8(SCHED_R)` (R28, R170); it is non-negative whenever a
schedule is current (R40). -/
def State.repeatCount (s : State) : Nat := (repOf s.schedR).toNat

/-- The number of segment instances, `3r + 3` (R153, R173). -/
def State.segCount (s : State) : Nat := (3 * repOf s.schedR + 3).toNat

/-- `Dur(Segments(r)[k])` for the current schedule: what EMIT stages as instance `k` (R173). -/
def State.payload (s : State) (k : Nat) : List Word :=
  dur s.cfg.params.timing s.data (segmentAt s.repeatCount k)

/-- SEQUENCE (R150): a negative count is rejected (R151), then a missing Data segment (R158), in that order
(R203); otherwise SCHED_R takes the operand and SCHED_V is set. -/
def execSequence (rep : BitVec 8) (s : State) : Host.Outcome State Fault Refusal :=
  if repOf rep < 0 then reject .negRepeat s
  else if s.dataV = false then reject .nodata s
  else .next { s with schedR := rep, schedV := true, err := .none }

end Sys2Proof.Machine
end

