-- ==== Sys2Proof/Machine/Emitter.lean ====
section
/-! DEFINITION. The Pulse Emitter boundary: EMIT and the steps that follow each answer (44_emitter.md). -/

namespace Sys2Proof.Machine

/-- EMIT, its accepting step (R170): rejected without a schedule (R183); otherwise EMIT_DONE and EMIT_IDX are
cleared, the core waits on `reset`, and `reset` is requested. ERR keeps its value until the EMIT ends. -/
def execEmit (s : State) : Host.Outcome State Fault Refusal :=
  if s.schedV = false then reject .nosched s
  else .next (State.request .reset { s with emitDone := false, emitIdx := 0#9, emitPhase := .waitReset })

/-- `reset` answered (R172): the first segment instance is staged. -/
def resetAnswered (s : State) : State :=
  State.request (.stage (s.payload 0)) (s.inPhase .waitStage)

/-- A staging failure (R173): the negative code is kept verbatim, the EMIT ends, and no further request is
issued (R177). -/
def stageFailed (h : Word) (s : State) : State :=
  State.raise .stageFail (State.inPhase .idle { s with emitResult := h })

/-- A handle obtained for instance `k = EMIT_IDX` (R173): stored, counted, and its definition staged in the
emitter (R35 (b)). -/
def handleStored (h : Word) (s : State) : State :=
  { s with
    handles := s.handles.setIfInBounds s.emitIdx.toNat h
    emitIdx := s.emitIdx + 1#9
    staged  := s.staged ++ [(h, s.payload s.emitIdx.toNat)] }

/-- `stage` answered (R173). Only the answer's sign is looked at (R179). After the last instance the handle
list is transmitted. -/
def stageAnswered (h : Word) (s : State) : State :=
  if h.toInt < 0 then stageFailed h s
  else if s.emitIdx.toNat + 1 < s.segCount then
    State.request (.stage (s.payload (s.emitIdx.toNat + 1))) (handleStored h s)
  else
    let s' := handleStored h s
    State.request (.transmit (s'.handles.toList.take s.segCount)) (s'.inPhase .waitTx)

/-- `transmit` answered (R175): the status is stored and not interpreted (R176). -/
def transmitAnswered (st : Word) (s : State) : State :=
  { s with emitResult := st, emitDone := true, emitPhase := .idle, err := .none }

/-- An answer of the kind the core is waiting for; any other changes nothing (R207 (b), log entry 4). -/
def takeAnswer (a : Answer) (s : State) : State :=
  match s.emitPhase, a with
  | .waitReset, .ack => resetAnswered s
  | .waitStage, .handle h => stageAnswered h s
  | .waitTx, .status st => transmitAnswered st s
  | _, _ => s

/-- An answer as it arrives: taken if it answers the outstanding request, else ignored (R207 (b), R231). DESIGN CHOICE
(log entry 21): an ignored handle of a `stage` issued before a reset adds nothing to the emitter's staged set, which the
spec leaves open. -/
def takeReply (rp : Reply) (s : State) : State :=
  if s.outstanding = some rp.req then takeAnswer rp.answer s else s

/-- The core waiting on the emitter: an arriving answer is looked at; with none it waits on (R181). -/
def awaitAnswer (reply : Option Reply) (s : State) : State :=
  match reply with
  | some rp => takeReply rp s
  | none => s

end Sys2Proof.Machine
end

