-- ==== Sys2Proof/Decode.lean ====
section
/-! DEFINITION. Command words: the decoder (R70 to R77), then the encoder, from the same format tables. -/

namespace Sys2Proof

/-- Why a command word is illegal (R77). Both are executed alike, as `Reject(ILLEGAL)`. -/
inductive DecodeError where
  /-- OP is 0x0 or 0x6 to 0xF. -/
  | illegalOpcode (op : BitVec 4)
  /-- A reserved bit of the opcode's format is 1. -/
  | reservedBits (op : BitVec 4)
deriving DecidableEq, Repr

/-- The opcode field OP, bits [3:0] of every format (R71). -/
def opField (w : Word) : BitVec 4 := w.extractLsb' 0 4

/-- Format S reserved bits, [31:24] and [15], are all 0 (R72). -/
def reservedClearS (w : Word) : Bool := w.extractLsb' 24 8 == 0#8 && w.extractLsb' 15 1 == 0#1

/-- Format R reserved bits, [31:24] and [15:4], are all 0 (R73). -/
def reservedClearR (w : Word) : Bool := w.extractLsb' 24 8 == 0#8 && w.extractLsb' 4 12 == 0#12

/-- Format N reserved bits, [31:4], are all 0 (R74). -/
def reservedClearN (w : Word) : Bool := w.extractLsb' 4 28 == 0#28

/-- The decoder: by OP, then the reserved bits of the format (R76, R77). Operands are taken as R75 says. -/
def decode (w : Word) : Except DecodeError Instr :=
  match (opField w).toNat with
  | 1 =>
    if reservedClearS w then
      .ok (.encode (w.extractLsb' 4 2) (w.extractLsb' 6 3) (w.extractLsb' 9 3) (w.extractLsb' 12 3) (w.extractLsb' 16 8))
    else .error (.reservedBits (opField w))
  | 2 => if reservedClearN w then .ok .checksum else .error (.reservedBits (opField w))
  | 3 => if reservedClearN w then .ok .translate else .error (.reservedBits (opField w))
  | 4 => if reservedClearR w then .ok (.sequence (w.extractLsb' 16 8)) else .error (.reservedBits (opField w))
  | 5 => if reservedClearN w then .ok .emit else .error (.reservedBits (opField w))
  | _ => .error (.illegalOpcode (opField w))

/-- The encoder: each command's bit pattern, bit 31 first, as R72, R73 and R74 write it. -/
def encode : Instr → Word
  | .encode power mode fan dir temp => 0#8 ++ temp ++ 0#1 ++ dir ++ fan ++ mode ++ power ++ 1#4
  | .checksum => 0#28 ++ 2#4
  | .translate => 0#28 ++ 3#4
  | .sequence rep => 0#8 ++ rep ++ 0#12 ++ 4#4
  | .emit => 0#28 ++ 5#4

/-- A table row's bits as the command word the host presents: the low `nbits` bits of `w`, every bit above
them 0. A command is one 32-bit word (R70), so table numbering and word numbering agree. -/
def tableWord (nbits w : Nat) : Word := BitVec.ofNat 32 (w % 2 ^ nbits)

/-- The instruction the decoder reads from a table row's bits; `none` where it refuses them, or where they
are longer than the one command length there is (R70). -/
def decodeTableWord (nbits w : Nat) : Option Instr :=
  if w % 2 ^ nbits < 2 ^ 32 then
    match decode (tableWord nbits w) with
    | .ok i => some i
    | .error _ => none
  else none

end Sys2Proof
end

