-- ==== Sys2Proof/Machine/FieldEncoder.lean ====
section
/-! DEFINITION. The Field Encoder: ENCODE (40_field_encoder.md). -/

namespace Sys2Proof.Machine

/-- Bytes 0 to 16 of the Frame ENCODE builds: the template, then each field's pattern (R100, R103). Byte 17 is
still the template's; `encodedFrame` fills it. -/
def packedFrame (p : Params) (power : BitVec 2) (mode fan dir : BitVec 3) (temp : BitVec 8) : Frame :=
  let m := p.fieldMap
  put m .dir (dirPat dir) <| put m .fan (fanPat fan) <| put m .temp (tempPat (tempOf temp)) <|
    put m .modeB (modeBPat mode) <| put m .modeA (modeAPat mode) <| put m .power (powerPat power) p.template

/-- The Frame of an ENCODE, checksum filled in the same step: no placeholder is ever visible (R101, R102). -/
def encodedFrame (p : Params) (power : BitVec 2) (mode fan dir : BitVec 3) (temp : BitVec 8) : Frame :=
  fillChecksum (packedFrame p power mode fan dir temp)

/-- ENCODE (R100): FRAME, CSUM and SETTINGS from the operands and CFG alone; FRAME_V set, DATA_V and SCHED_V
cleared (R110). No settings value is an error (R111). -/
def execEncode (power : BitVec 2) (mode fan dir : BitVec 3) (temp : BitVec 8) (s : State) :
    Host.Outcome State Fault Refusal :=
  let built := packedFrame s.cfg.params power mode fan dir temp
  .next { s with
    frame    := fillChecksum built
    csum     := sym8 (checksum17 built)
    settings := encode (.encode power mode fan dir temp) &&& settingsMask
    frameV   := true
    dataV    := false
    schedV   := false
    err      := .none }

end Sys2Proof.Machine
end

