-- ==== Sys2Proof/Machine/PulseTranslator.lean ====
section
/-! DEFINITION. The Pulse Translator: TRANSLATE (42_pulse_translator.md). -/

namespace Sys2Proof.Machine

/-- The symbol at flat bit index `i = 8·b + s` (R12): byte `i div 8`, symbol `i mod 8`. -/
def flatSymbol (fr : Frame) (i : Fin 144) : Bool := symbol (fr[i.val / 8]'(by omega)) (i.val % 8)

/-- The "off" gap that encodes a symbol (R141). -/
def gapOf (tm : Timing) (sym : Bool) : Word := if sym then tm.oneOff else tm.zeroOff

/-- `Translate` (R141): entry `2i` is BIT_ON, entry `2i + 1` the gap of flat bit `i`. -/
def translateFrame (tm : Timing) (fr : Frame) : DataSegment :=
  Vector.ofFn fun k : Fin 288 =>
    if k.val % 2 = 0 then tm.bitOn else gapOf tm (flatSymbol fr ⟨k.val / 2, by omega⟩)

/-- TRANSLATE (R140): DATA from FRAME; DATA_V set, SCHED_V cleared (R142). -/
def execTranslate (s : State) : Host.Outcome State Fault Refusal :=
  .next { s with
    data   := translateFrame s.cfg.params.timing s.frame
    dataV  := true
    schedV := false
    err    := .none }

end Sys2Proof.Machine
end

