-- ==== Sys2Proof/Machine/Dispatch.lean ====
section
/-! DEFINITION. One arm per command. -/

namespace Sys2Proof.Machine

def exec (i : Instr) (s : State) : Host.Outcome State Fault Refusal :=
  match i with
  | .encode power mode fan dir temp => Sys2Proof.Machine.execEncode power mode fan dir temp s
  | .checksum => Sys2Proof.Machine.execChecksum s
  | .translate => Sys2Proof.Machine.execTranslate s
  | .sequence rep => Sys2Proof.Machine.execSequence rep s
  | .emit => Sys2Proof.Machine.execEmit s

end Sys2Proof.Machine
end

