-- ==== Sys2Proof/Machine/CommandPort.lean ====
section
/-! DEFINITION. The command port and one turn of the machine (R78, R207, R216, R231). -/

namespace Sys2Proof.Machine

/-- An accepted command word (R76, R77): a legal word is executed, an illegal one is `Reject(ILLEGAL)`. -/
def acceptWord (w : Word) (s : State) : Host.Outcome State Fault Refusal :=
  match decode w with
  | .ok i => exec i s
  | .error _ => reject .illegal s

/-- The core at its command port with `cmd_ready = 1` (R78): it accepts the word offered, each exactly once;
with none offered it is idle and keeps all its state (R216). -/
def servePort (s : State) : Host.Outcome State Fault Refusal :=
  match s.port with
  | [] => .next s
  | w :: ws => acceptWord w (s.withPort ws)

/-- One turn. Reset wins over everything (R207 (a), R231): an answer in the same step is lost (log entry 21) and the port
keeps its words (log entry 12). While an EMIT is in progress only an answer moves the core, and a command offered waits
(R78, R207 (d)); with no answer it waits on, for ever if need be (R181). Otherwise an answer finds no outstanding request
and is ignored (R207 (b)), and the port is served. -/
def playTurn (t : Turn) (s : State) : Host.Outcome State Fault Refusal :=
  if t.reset then .next s.applyReset
  else if s.busy then .next (awaitAnswer t.reply s)
  else servePort s

/-- The turn the environment plays now: past the end of its list nothing arrives. -/
def State.turnNow (s : State) : Turn := s.turns.headD {}

/-- The state with that turn taken off the list. -/
def State.turnTaken (s : State) : State := { s with turns := s.turns.tail }

/-- One step of the machine. -/
def takeTurn (s : State) : Host.Outcome State Fault Refusal := playTurn s.turnNow s.turnTaken

/-- `s` with the word `w` next on the command port and nothing else to arrive in the next step, the port ready
(log entry 14). -/
def State.offer (w : Word) (s : State) : State :=
  { s with port := w :: s.port, turns := {} :: s.turns, emitPhase := .idle }

end Sys2Proof.Machine
end

