-- ==== Sys2Proof/Machine/Step.lean ====
section
/-! DEFINITION. One step of the machine, and a command placed where the next step accepts it. -/

namespace Sys2Proof.Machine

/-- One step: the environment's next turn is played (Machine/CommandPort.lean). -/
def step (s : State) : Host.Outcome State Fault Refusal := takeTurn s

/-- `s` with a table row's word offered on the command port, so that the next step accepts it. IRENC fetches
nothing (R34): the host's offer is what stands in for a fetch (log entries 1 and 14). -/
def State.withFetchWord (s : State) (nbits w : Nat) : State := s.offer (tableWord nbits w)

end Sys2Proof.Machine
end

