-- ==== Sys2Proof/Machine/Assembler.lean ====
section
/-! DEFINITION. The assembler (R79) and the pseudo-instructions (R80): lines to command words, and text to lines. -/

namespace Sys2Proof.Machine

/-- The code a power name stands for (R104). -/
def powerCode : EnumOperand PowerName → Nat
  | .name .off => 0
  | .name .on => 1
  | .code k => k

/-- The code a mode name stands for (R105). -/
def modeCode : EnumOperand ModeName → Nat
  | .name .heat => 0
  | .name .dry => 1
  | .name .cold => 2
  | .name .auto => 3
  | .code k => k

/-- The code a fan-speed name stands for (R108). -/
def fanCode : EnumOperand FanName → Nat
  | .name .auto => 0
  | .name .low => 1
  | .name .middle => 2
  | .name .high => 3
  | .code k => k

/-- The code a fan-direction name stands for (R109). -/
def dirCode : EnumOperand DirName → Nat
  | .name .auto => 0
  | .name .lowest => 1
  | .name .low => 2
  | .name .middle => 3
  | .name .high => 4
  | .name .highest => 5
  | .name .loop => 6
  | .code k => k

/-- The ENCODE command of a settings operand list. -/
def settingsInstr (st : AsmSettings) : Instr :=
  .encode (BitVec.ofNat 2 (powerCode st.power)) (BitVec.ofNat 3 (modeCode st.mode)) (BitVec.ofNat 3 (fanCode st.fan))
    (BitVec.ofNat 3 (dirCode st.dir)) (BitVec.ofInt 8 st.temp)

/-- The SEQUENCE command of a decimal repeat count. -/
def repInstr (r : Int) : Instr := .sequence (BitVec.ofInt 8 r)

/-- A line's command words, pseudo-instructions expanded as R80 says. -/
def expandLine : AsmLine → List Word
  | .encode st => [encode (settingsInstr st)]
  | .checksum => [encode .checksum]
  | .translate => [encode .translate]
  | .sequence r => [encode (repInstr r)]
  | .emit => [encode .emit]
  | .word w => [BitVec.ofNat 32 w]
  | .send st r => [encode (settingsInstr st), encode .translate, encode (repInstr r), encode .emit]
  | .resend r => [encode (repInstr r), encode .emit]
  | .verify => [encode .checksum]

/-- A line assembled. A value outside its range is refused, by the name of the check; nothing wraps (R79). -/
def assembleLine (l : AsmLine) : Except AsmCheck (List Word) :=
  match l.failed with
  | [] => .ok (expandLine l)
  | c :: _ => .error c

/-- A program assembled: its lines' words in order. -/
def assembleProgram : List AsmLine → Except AsmCheck (List Word)
  | [] => .ok []
  | l :: ls =>
    match assembleLine l, assembleProgram ls with
    | .ok ws, .ok rest => .ok (ws ++ rest)
    | .error c, _ => .error c
    | .ok _, .error c => .error c

/-! The text of a line (R79). Log entry 17 says what R79 leaves open about it. -/

/-- A line without its comment: `;` begins one. -/
def dropComment (cs : List Char) : List Char := cs.takeWhile (fun c => c != ';')

/-- The tokens of a line: `,` and `=` stand alone, blanks separate. `cur` is the token being read, reversed. -/
def tokenize : List Char → List Char → List (List Char)
  | [], cur => if cur.isEmpty then [] else [cur.reverse]
  | c :: cs, cur =>
    let before := if cur.isEmpty then [] else [cur.reverse]
    if c = ' ' ∨ c = '\t' ∨ c = '\r' then before ++ tokenize cs []
    else if c = ',' ∨ c = '=' then before ++ [c] :: tokenize cs []
    else tokenize cs (c :: cur)

/-- A digit of base 10 or 16. -/
def digitOf (base : Nat) (c : Char) : Option Nat :=
  let n := c.toNat
  let v := if 48 ≤ n ∧ n ≤ 57 then n - 48 else if 97 ≤ n ∧ n ≤ 102 then n - 87 else if 65 ≤ n ∧ n ≤ 70 then n - 55 else 16
  if v < base then some v else none

/-- The digits of a number, most significant first, after the value `acc` read so far. -/
def digitsOf (base : Nat) : List Char → Nat → Option Nat
  | [], acc => some acc
  | c :: cs, acc =>
    match digitOf base c with
    | some d => digitsOf base cs (acc * base + d)
    | none => none

/-- An unsigned decimal number. -/
def natOf (cs : List Char) : Option Nat := if cs.isEmpty then none else digitsOf 10 cs 0

/-- A decimal integer, negative with a leading `-`. -/
def intOf : List Char → Option Int
  | '-' :: cs => (natOf cs).map (fun n => -(n : Int))
  | cs => (natOf cs).map (fun n => (n : Int))

/-- A hexadecimal number with its `0x`. -/
def hexOf : List Char → Option Nat
  | '0' :: 'x' :: c :: cs => digitsOf 16 (c :: cs) 0
  | _ => none

/-- An enumerated operand: one of the names given, or a code number. -/
def enumOf {α : Type} (names : List (String × α)) (tok : List Char) : Option (EnumOperand α) :=
  match names.find? (fun p => p.1.toList = tok) with
  | some p => some (.name p.2)
  | none => (natOf tok).map .code

/-- The operand list of `ENCODE` and `SEND`: every operand, in the order of R79. Answers the tokens left. -/
def settingsOf : List (List Char) → Option (AsmSettings × List (List Char))
  | k1 :: e1 :: p :: c1 :: k2 :: e2 :: m :: c2 :: k3 :: e3 :: t :: c3 :: k4 :: e4 :: f :: c4 :: k5 :: e5 :: d :: rest =>
    if [k1, k2, k3, k4, k5] = ["power".toList, "mode".toList, "temp".toList, "fan".toList, "dir".toList]
        ∧ [e1, e2, e3, e4, e5] = List.replicate 5 ['='] ∧ [c1, c2, c3, c4] = List.replicate 4 [','] then do
      let power ← enumOf [("off", PowerName.off), ("on", .on)] p
      let mode ← enumOf [("heat", ModeName.heat), ("dry", .dry), ("cold", .cold), ("auto", .auto)] m
      let temp ← intOf t
      let fan ← enumOf [("auto", FanName.auto), ("low", .low), ("middle", .middle), ("high", .high)] f
      let dir ← enumOf [("auto", DirName.auto), ("lowest", .lowest), ("low", .low), ("middle", .middle), ("high", .high),
        ("highest", .highest), ("loop", .loop)] d
      some (⟨power, mode, temp, fan, dir⟩, rest)
    else none
  | _ => none

/-- A line's mnemonic and operands. -/
def lineOf (mnemonic : List Char) (operands : List (List Char)) : Option AsmLine :=
  if mnemonic = "ENCODE".toList then
    match settingsOf operands with
    | some (st, []) => some (.encode st)
    | _ => none
  else if mnemonic = "SEND".toList then
    match settingsOf operands with
    | some (st, [[','], r]) => (intOf r).map (.send st)
    | _ => none
  else match operands with
    | [] =>
      if mnemonic = "CHECKSUM".toList then some .checksum
      else if mnemonic = "TRANSLATE".toList then some .translate
      else if mnemonic = "EMIT".toList then some .emit
      else if mnemonic = "VERIFY".toList then some .verify
      else none
    | [tok] =>
      if mnemonic = "SEQUENCE".toList then (intOf tok).map .sequence
      else if mnemonic = "RESEND".toList then (intOf tok).map .resend
      else if mnemonic = ".word".toList then (hexOf tok).map .word
      else none
    | _ => none

/-- What a line of text is: nothing (blank, or a comment only), a line of the program, or no line at all. -/
inductive ParsedLine where
  | blank
  | line (l : AsmLine)
  | malformed
deriving DecidableEq, Repr

/-- One line of program text read. -/
def parseLine (cs : List Char) : ParsedLine :=
  match tokenize (dropComment cs) [] with
  | [] => .blank
  | mnemonic :: operands =>
    match lineOf mnemonic operands with
    | some l => .line l
    | none => .malformed

end Sys2Proof.Machine
end

