-- ==== Sys2Proof/Machine/RegisterSpace.lean ====
section
/-! DEFINITION. The host register space (20_memory.md): read-only, 12-bit word addresses, 32-bit words. -/

namespace Sys2Proof.Machine

/-- SCHED_NSEG (R57): computed on the read. -/
def State.schedNseg (s : State) : Word :=
  if s.schedV then BitVec.ofInt 32 (3 * repOf s.schedR + 3) else 0#32

/-- SCHED_LEN (R57): computed on the read. -/
def State.schedLen (s : State) : Word :=
  if s.schedV then BitVec.ofInt 32 (292 * (repOf s.schedR + 1)) else 0#32

/-- The registers below 0x010 (R51). -/
def readLow (n : Nat) (s : State) : Word :=
  match n with
  | 0x000 => s.status
  | 0x001 => s.csum.setWidth 32
  | 0x002 => s.settings
  | 0x003 => s.schedR.setWidth 32
  | 0x004 => s.schedNseg
  | 0x005 => s.schedLen
  | 0x006 => s.emitResult
  | 0x007 => s.emitIdx.setWidth 32
  | _ => 0#32

/-- The timing entries, 0x030 to 0x036 (R56). -/
def readTiming (n : Nat) (tm : Timing) : Word :=
  match n with
  | 0x030 => tm.hdrOn
  | 0x031 => tm.hdrOff
  | 0x032 => tm.bitOn
  | 0x033 => tm.zeroOff
  | 0x034 => tm.oneOff
  | 0x035 => tm.rptOn
  | 0x036 => tm.rptOff
  | _ => 0#32

/-- `MemRead(addr, 4)` (R51 to R57): the word a host read returns in state `s`. It is a function of the state:
a read changes nothing (R62) and is allowed in every state. An address R51 does not list reads as zero (R52). -/
def hostRead (a : Addr) (s : State) : Word :=
  let n := a.toNat
  if n < 0x010 then readLow n s
  else if n < 0x022 then BitVec.ofNat 32 (num (s.frame.getD (n - 0x010) 0#8))
  else if n < 0x100 then readTiming n s.cfg.params.timing
  else if n < 0x220 then s.data.getD (n - 0x100) 0#32
  else if 0x400 ≤ n ∧ n < 0x580 then s.handles.getD (n - 0x400) 0#32
  else 0#32

end Sys2Proof.Machine
end

