-- ==== Sys2Proof/Safety.lean ====
section
/-! DEFINITION. The terms claims are made in: the invariants of the spec (R39, R40, R174, R178) and what a run, its end and its errors are (R237, R238). -/

namespace Sys2Proof.Machine

/-- R39: byte 17 and CSUM hold the checksum of bytes 0 to 16. -/
def State.ChecksumHolds (s : State) : Prop :=
  num s.frame[17] = checksum17 s.frame ∧ s.csum.toNat = num s.frame[17]

/-- R40: what each valid bit implies. -/
def State.ValidBitsHold (s : State) : Prop :=
  (s.dataV = true → s.data = translateFrame s.cfg.params.timing s.frame) ∧
  (s.schedV = true → s.dataV = true ∧ 0 ≤ repOf s.schedR ∧ repOf s.schedR ≤ 127) ∧
  (s.busy = true → s.schedV = true)

/-- R29, R22: with FRAME_V set, FRAME is the Frame of the settings operands SETTINGS shows; and SETTINGS never
shows a bit outside its fields. -/
def State.FrameFromSettings (s : State) : Prop :=
  s.settings &&& ~~~settingsMask = 0#32 ∧
  (s.frameV = true → ∃ power mode fan dir temp,
    s.settings = encode (.encode power mode fan dir temp) &&& settingsMask ∧
    s.frame = encodedFrame s.cfg.params power mode fan dir temp)

/-- R30, R204: a recorded error code implies the sticky bit, and EMIT_DONE is 0 while an EMIT is in progress. -/
def State.StatusHolds (s : State) : Prop :=
  (s.err ≠ .none → s.errSeen = true) ∧ (s.busy = true → s.emitDone = false)

/-- The requests an EMIT has issued once `k` segment instances have been requested (R178). -/
def State.requestsTo (s : State) (k : Nat) : List Request :=
  .reset :: (List.range k).map (fun j => .stage (s.payload j))

/-- The definitions of the first `k` instances under their handles (R35 (b)). -/
def State.stagedTo (s : State) (k : Nat) : List (Word × List Word) :=
  (List.range k).map (fun j => (s.handles.getD j 0#32, s.payload j))

/-- R174, R178, R67: where an EMIT stands. EMIT_IDX counts the handles obtained, the trace ends with exactly
the requests made so far in their order, and the emitter holds exactly the definitions whose handles came. -/
def State.EmitHolds (s : State) : Prop :=
  s.emitIdx.toNat ≤ 384 ∧
  match s.emitPhase with
  | .idle => True
  | .waitReset => s.emitIdx = 0#9 ∧ s.staged = [] ∧ [.reset] <:+ s.trace
  | .waitStage => s.emitIdx.toNat < s.segCount ∧ s.staged = s.stagedTo s.emitIdx.toNat ∧
      s.requestsTo (s.emitIdx.toNat + 1) <:+ s.trace
  | .waitTx => s.emitIdx.toNat = s.segCount ∧ s.staged = s.stagedTo s.segCount ∧
      s.requestsTo s.segCount ++ [.transmit (s.handles.toList.take s.segCount)] <:+ s.trace

/-- The invariant of the machine: all of the above. It holds after reset (R234) and every step keeps it. -/
structure State.Inv (s : State) : Prop where
  checksum : s.ChecksumHolds
  valid    : s.ValidBitsHold
  frame    : s.FrameFromSettings
  status   : s.StatusHolds
  emit     : s.EmitHolds

/-- The words R77 calls illegal, read as numbers: OP is 0x0 or 0x6 to 0xF, or a reserved bit of the format is 1
(R72: [31:24] and [15]; R73: [31:24] and [15:4]; R74: [31:4]). -/
def IllegalWord (w : Word) : Prop :=
  w.toNat % 16 = 0 ∨ 6 ≤ w.toNat % 16 ∨
  (w.toNat % 16 = 1 ∧ (w.toNat / 2 ^ 24 ≠ 0 ∨ w.toNat / 2 ^ 15 % 2 ≠ 0)) ∨
  (w.toNat % 16 = 4 ∧ (w.toNat / 2 ^ 24 ≠ 0 ∨ w.toNat / 2 ^ 4 % 2 ^ 12 ≠ 0)) ∨
  ((w.toNat % 16 = 2 ∨ w.toNat % 16 = 3 ∨ w.toNat % 16 = 5) ∧ w.toNat / 2 ^ 4 ≠ 0)

/-- The core accepts the word `w` in the step from `s` (R78): `cmd_ready` is 1, no reset is asserted, and `w` is
on the command port, `ws` behind it. -/
def State.Accepts (s : State) (w : Word) (ws : List Word) : Prop :=
  s.busy = false ∧ s.turnNow.reset = false ∧ s.port = w :: ws

/-- The emitter answers the outstanding request with `a` in the step from `s`, and no reset is asserted. -/
def State.Answered (s : State) (a : Answer) : Prop :=
  s.busy = true ∧ s.turnNow.reset = false ∧ ∃ rp, s.turnNow.reply = some rp ∧ s.outstanding = some rp.req ∧ rp.answer = a

/-- The command `i` is rejected in state `s` (R151, R158, R183): its operand or the state does not allow it. -/
def State.Rejects (s : State) : Instr → Prop
  | .encode _ _ _ _ _ => False
  | .checksum => False
  | .translate => False
  | .sequence rep => rep.toInt < 0 ∨ s.dataV = false
  | .emit => s.schedV = false

/-- The step from `s` has a cause to record an error code (R201, R204): it accepts an illegal word or a command that
is rejected, or it takes a negative `stage` answer. -/
def State.RecordsError (s : State) : Prop :=
  (∃ w ws, s.Accepts w ws ∧ (IllegalWord w ∨ ∃ i, decode w = .ok i ∧ s.Rejects i)) ∨
  (s.emitPhase = .waitStage ∧ ∃ h : Word, h.toInt < 0 ∧ s.Answered (.handle h))

/-- A command program has ended (R237): its last word has been accepted and no EMIT is in progress. -/
def State.Ended (s : State) : Prop := s.port = [] ∧ s.busy = false

/-- "No error recorded" (R238): STATUS.ERR_SEEN = 0. -/
def State.NoErrorRecorded (s : State) : Prop := s.errSeen = false

/-- `t` is a state a run of the machine reaches from `s`. -/
def Reaches (s t : State) : Prop := ∃ n, Sys2Proof.core.run n s = .next t

/-- The segment payloads staged in a trace, in the order staged: under the emitter's contract (R182) their
concatenation is the waveform of a successful EMIT (R178). -/
def stagedPayloads (rs : List Request) : List (List Word) :=
  rs.filterMap (fun r => match r with
    | .stage l => some l
    | .reset => none
    | .transmit _ => none)

end Sys2Proof.Machine
end

