-- ==== Sys2Proof/Certificates/Slice0/Obligations.lean ====
section
/-! DEFINITION. The statements for the provers: the spec's rules as claims about the machine. -/

open Sys2Proof Sys2Proof.Machine

/-- Decoding an encoded command gives it back. Rests on 30_encoding.md §1 (R70 to R76). -/
def Obligations.DecodeOfEncodeIsIdentity : Prop :=
  ∀ i : Instr, i.wf = true → decode (encode i) = .ok i

/-- Each legal word is the encoding of what it decodes to. Rests on 30_encoding.md §1 (R70 to R76). -/
def Obligations.EncodeOfDecodeIsIdentity : Prop :=
  ∀ (w : Word) (i : Instr), decode w = .ok i → encode i = w

/-- The decoder refuses exactly the words R77 calls illegal. Rests on 30_encoding.md §1 and §3 (R72, R73, R74, R76,
R77). -/
def Obligations.DecoderRefusesExactlyIllegalWords : Prop :=
  ∀ w : Word, (∃ e, decode w = .error e) ↔ IllegalWord w

/-- Operands are the word's fields, zero- or sign-extended. Rests on 30_encoding.md §2 (R75). -/
def Obligations.DecodedOperandsAreTheWordsFields : Prop :=
  (∀ (w : Word) (power : BitVec 2) (mode fan dir : BitVec 3) (temp : BitVec 8),
    decode w = .ok (.encode power mode fan dir temp) →
      power.toNat = w.toNat / 2 ^ 4 % 4 ∧ mode.toNat = w.toNat / 2 ^ 6 % 8 ∧ fan.toNat = w.toNat / 2 ^ 9 % 8 ∧
      dir.toNat = w.toNat / 2 ^ 12 % 8 ∧
      tempOf temp = (if w.toNat / 2 ^ 16 % 256 < 128 then ((w.toNat / 2 ^ 16 % 256 : Nat) : Int)
        else ((w.toNat / 2 ^ 16 % 256 : Nat) : Int) - 256)) ∧
  (∀ (w : Word) (rep : BitVec 8), decode w = .ok (.sequence rep) →
      repOf rep = (if w.toNat / 2 ^ 16 % 256 < 128 then ((w.toNat / 2 ^ 16 % 256 : Nat) : Int)
        else ((w.toNat / 2 ^ 16 % 256 : Nat) : Int) - 256))

/-- The spec's worked words decode to the commands they stand for. Rests on 30_encoding.md §4 (R81);
95_test_vectors.md §2.1, §2.4. -/
def Obligations.WorkedWordsDecodeAsTheSpecSays : Prop :=
  decode 0x00180211#32 = .ok (.encode 1#2 0#3 1#3 0#3 24#8) ∧ decode 0x00010004#32 = .ok (.sequence 1#8) ∧
  decode 0x00FF0004#32 = .ok (.sequence (BitVec.ofInt 8 (-1))) ∧ decode 2#32 = .ok .checksum ∧ decode 3#32 = .ok .translate ∧
  decode 5#32 = .ok .emit ∧ decode 0x00188211#32 = .error (.reservedBits 1#4) ∧
  decode 0x01010004#32 = .error (.reservedBits 4#4) ∧ decode 0#32 = .error (.illegalOpcode 0#4)

/-- A step with a legal word on a ready port executes it, and so does the step after the tool withFetchWord. Rests on
30_encoding.md §2 and §3 (R76, R78). The model's own: log entry 14. -/
def Obligations.StepRunsTheDecodedCommand : Prop :=
  (∀ (s : State) (w : Word) (ws : List Word) (i : Instr), s.Accepts w ws → decode w = .ok i →
    step s = exec i { s with turns := s.turns.tail, port := ws }) ∧
  (∀ (s : State) (n w : Nat) (i : Instr), decodeTableWord n w = some i →
    step (s.withFetchWord n w) = exec i { s with emitPhase := .idle })

/-- An accepted illegal word sets ERR and ERR_SEEN and changes nothing else. Formalises R77. -/
def Obligations.IllegalWordIsRejectedPrecisely : Prop :=
  ∀ (s : State) (w : Word) (ws : List Word), s.Accepts w ws → IllegalWord w →
    step s = .next { s with turns := s.turns.tail, port := ws, err := .illegal, errSeen := true }

/-- A command leaves the port only when accepted, one at a time, never while BUSY. Rests on 30_encoding.md §3 (R78);
60_exceptions.md §1 and §2 (R200, R207 (d)). The model's own: log entries 11 and 12. -/
def Obligations.CommandsAreAcceptedOnceAndOnlyWhenReady : Prop :=
  ∀ s : State, ∃ t, step s = .next t ∧
    (t.port = s.port ∨ (s.cmdReady = true ∧ ∃ w, s.port = w :: t.port)) ∧
    (s.busy = true → t.port = s.port) ∧
    (s.cmdReady = true → s.turnNow.reset = false → t.port = s.port.tail) ∧
    (s.turnNow.reset = true → t.port = s.port)

/-- An idle IRENC with no command offered keeps all its state. Rests on 60_exceptions.md §3 (R216). The model's own:
log entry 11. -/
def Obligations.IdleMachineKeepsAllItsState : Prop :=
  ∀ s : State, s.busy = false → s.port = [] → s.turnNow.reset = false → step s = .next { s with turns := s.turns.tail }

/-- After a reset turn every host word but the timing table reads zero. Rests on 10_state.md §7 (R37);
70_reset_and_hazards.md §1 (R230, R231). The model's own: log entry 21. -/
def Obligations.ResetPutsEveryRegisterToItsResetValue : Prop :=
  ∀ s : State, s.turnNow.reset = true → ∃ t, step s = .next t ∧
    (∀ a : Addr, hostRead a t = if 0x030 ≤ a.toNat ∧ a.toNat ≤ 0x036 then hostRead a s else 0#32) ∧
    t.cmdReady = true ∧ t.emitPhase = .idle ∧ t.err = .none ∧
    (∀ (b k : Nat) (hb : b < 18), symbol t.frame[b] k = false) ∧ t.schedR = 0#8 ∧
    t.frameV = false ∧ t.dataV = false ∧ t.schedV = false ∧ t.emitDone = false ∧ t.errSeen = false ∧
    t.cfg = s.cfg ∧ t.trace = s.trace ∧ t.staged = s.staged

/-- The state after reset reads zero everywhere but the timing table. Rests on 10_state.md §7 (R37);
95_test_vectors.md §2.6 (RS-1). -/
def Obligations.ResetStateReadsAsTheSpecSays : Prop :=
  (∀ a : Addr, ¬(0x030 ≤ a.toNat ∧ a.toNat ≤ 0x036) → hostRead a State.reset = 0#32) ∧
  State.reset.settings = 0#32 ∧ State.reset.csum = 0#8 ∧ State.reset.schedR = 0#8 ∧ State.reset.emitResult = 0#32 ∧
  State.reset.emitIdx = 0#9 ∧ (∀ (k : Nat) (h : k < 288), State.reset.data[k] = 0#32) ∧
  (∀ (k : Nat) (h : k < 384), State.reset.handles[k] = 0#32) ∧
  (∀ (b k : Nat) (h : b < 18), symbol State.reset.frame[b] k = false) ∧
  State.reset.frameV = false ∧ State.reset.dataV = false ∧ State.reset.schedV = false ∧ State.reset.status = 0#32 ∧
  State.reset.emitPhase = .idle ∧ State.reset.err = .none ∧ State.reset.cmdReady = true

/-- Reset ends an EMIT at once, cannot undo it in the emitter, and late answers change nothing. Rests on
70_reset_and_hazards.md §1 (R231); 60_exceptions.md §2 (R207 (b)). The model's own: log entries 4 and 21. -/
def Obligations.ResetEndsAnEmitAndItsLateAnswersAreIgnored : Prop :=
  ∀ s : State, s.turnNow.reset = true →
    (∃ t, step s = .next t ∧ t.busy = false ∧ t.trace = s.trace ∧ t.staged = s.staged) ∧
    ∀ (k : Nat) (u : State) (rp : Reply), Sys2Proof.core.run (k + 1) s = .next u → rp.req < s.trace.length →
      u.turnNow.reset = false → u.turnNow.reply = some rp → step u = step { u with turns := {} :: u.turns.tail }

/-- An answer to no outstanding request, or of another kind than the outstanding one, changes no state. Rests on
60_exceptions.md §2 (R207 (b)); 44_emitter.md §1 (R171). The model's own: log entries 4 and 21. -/
def Obligations.AnswerToNoOutstandingRequestIsIgnored : Prop :=
  ∀ (s : State) (rp : Reply), s.turnNow.reset = false → s.turnNow.reply = some rp →
    (s.outstanding ≠ some rp.req → step s = step { s with turns := {} :: s.turns.tail }) ∧
    ((s.emitPhase = .waitReset → rp.answer ≠ .ack) → (s.emitPhase = .waitStage → ∀ h, rp.answer ≠ .handle h) →
      (s.emitPhase = .waitTx → ∀ st, rp.answer ≠ .status st) → step s = step { s with turns := {} :: s.turns.tail })

/-- An emitter that never answers leaves the core waiting for ever; only reset ends it. Rests on 44_emitter.md §3
(R181); 70_reset_and_hazards.md §1 (R231). The model's own: log entry 11. -/
def Obligations.SilentEmitterHangsUntilReset : Prop :=
  (∀ (s : State) (n : Nat), s.busy = true → (∀ t ∈ s.turns, t.reset = false ∧ t.reply = none) →
    Sys2Proof.core.run n s = .next { s with turns := s.turns.drop n }) ∧
  (∀ s : State, s.busy = true → s.turnNow.reset = true → ∃ t, step s = .next t ∧ t.busy = false ∧ t.trace = s.trace)

/-- ENCODE writes the power symbol: 1 for on, 0 for every other code. Formalises R104. -/
def Obligations.EncodePlacesPower : Prop :=
  ∀ (s : State) (power : BitVec 2) (mode fan dir : BitVec 3) (temp : BitVec 8),
    ∃ t, exec (.encode power mode fan dir temp) s = .next t ∧
      symbol t.frame[5] s.cfg.params.fieldMap.powerOff = decide (power.toNat = 1)

/-- ENCODE writes the two independent mode patterns. Formalises R105, R106. -/
def Obligations.EncodePlacesBothModeCopies : Prop :=
  ∀ (s : State) (power : BitVec 2) (mode fan dir : BitVec 3) (temp : BitVec 8),
    ∃ t, exec (.encode power mode fan dir temp) s = .next t ∧
      (symbol t.frame[6] s.cfg.params.fieldMap.modeAOff, symbol t.frame[6] (s.cfg.params.fieldMap.modeAOff + 1)) =
        (if mode.toNat = 0 then (true, false) else if mode.toNat = 1 then (false, true) else (true, true)) ∧
      (symbol t.frame[8] s.cfg.params.fieldMap.modeBOff, symbol t.frame[8] (s.cfg.params.fieldMap.modeBOff + 1)) =
        (if mode.toNat = 0 then (false, false) else if mode.toNat = 1 then (true, false) else (true, true))

/-- ENCODE writes the temperature offset most significant bit first, or the fallback 0110. Formalises R107. -/
def Obligations.EncodePlacesTemperature : Prop :=
  ∀ (s : State) (power : BitVec 2) (mode fan dir : BitVec 3) (temp : BitVec 8),
    ∃ t, exec (.encode power mode fan dir temp) s = .next t ∧
      ∀ j : Nat, j < 4 → symbol t.frame[7] (s.cfg.params.fieldMap.tempOff + j) =
        if 16 ≤ temp.toInt ∧ temp.toInt ≤ 31 then decide ((temp.toInt - 16).toNat / 2 ^ (3 - j) % 2 = 1)
        else decide (j = 1 ∨ j = 2)

/-- ENCODE writes the fan-speed pattern. Formalises R108. -/
def Obligations.EncodePlacesFanSpeed : Prop :=
  ∀ (s : State) (power : BitVec 2) (mode fan dir : BitVec 3) (temp : BitVec 8),
    ∃ t, exec (.encode power mode fan dir temp) s = .next t ∧
      (symbol t.frame[9] s.cfg.params.fieldMap.fanOff, symbol t.frame[9] (s.cfg.params.fieldMap.fanOff + 1)) =
        (if fan.toNat = 1 then (true, false) else if fan.toNat = 2 then (false, true)
         else if fan.toNat = 3 then (true, true) else (false, false))

/-- ENCODE writes the fan-direction pattern, disjoint from the fan speed. Formalises R109. -/
def Obligations.EncodePlacesFanDirection : Prop :=
  ∀ (s : State) (power : BitVec 2) (mode fan dir : BitVec 3) (temp : BitVec 8),
    ∃ t, exec (.encode power mode fan dir temp) s = .next t ∧
      (symbol t.frame[9] s.cfg.params.fieldMap.dirOff, symbol t.frame[9] (s.cfg.params.fieldMap.dirOff + 1),
          symbol t.frame[9] (s.cfg.params.fieldMap.dirOff + 2)) =
        (if dir.toNat = 1 then (true, false, false) else if dir.toNat = 2 then (false, true, false)
         else if dir.toNat = 3 then (true, true, false) else if dir.toNat = 4 then (false, false, true)
         else if dir.toNat = 5 then (false, true, true) else if dir.toNat = 6 then (true, true, true)
         else (false, false, false)) ∧
      ∀ k : Nat, ¬((s.cfg.params.fieldMap.fanOff ≤ k ∧ k < s.cfg.params.fieldMap.fanOff + 2) ∧
        (s.cfg.params.fieldMap.dirOff ≤ k ∧ k < s.cfg.params.fieldMap.dirOff + 3))

/-- ENCODE leaves every symbol outside the fields as the template has it. Formalises R103. -/
def Obligations.EncodeKeepsTheTemplateOutsideTheFields : Prop :=
  ∀ (s : State) (power : BitVec 2) (mode fan dir : BitVec 3) (temp : BitVec 8),
    ∃ t, exec (.encode power mode fan dir temp) s = .next t ∧
      ∀ (b k : Nat) (hb : b < 17), k < 8 →
        (∀ f : Field, ¬((byteOf f).val = b ∧ offOf s.cfg.params.fieldMap f ≤ k ∧
          k < offOf s.cfg.params.fieldMap f + widthOf f)) →
        symbol t.frame[b] k = symbol s.cfg.params.template[b] k

/-- ENCODE fills byte 17 and CSUM with the checksum of the bytes it built. Formalises R102. -/
def Obligations.EncodeFillsTheChecksumInTheSameStep : Prop :=
  ∀ (s : State) (power : BitVec 2) (mode fan dir : BitVec 3) (temp : BitVec 8),
    ∃ t, exec (.encode power mode fan dir temp) s = .next t ∧
      num t.frame[17] = (∑ b : Fin 17, num t.frame[b.val]) % 256 ∧ t.csum.toNat = num t.frame[17]

/-- ENCODE's effects on SETTINGS, the valid bits and ERR, and everything but these, FRAME and CSUM unchanged. Rests on
40_field_encoder.md §1 and §2 (R100, R110); 10_state.md §1 and §8 (R22, R38). -/
def Obligations.EncodeSetsSettingsValidBitsAndErrAndKeepsTheRest : Prop :=
  ∀ (s : State) (power : BitVec 2) (mode fan dir : BitVec 3) (temp : BitVec 8),
    ∃ t, exec (.encode power mode fan dir temp) s = .next t ∧
      t.settings.toNat = power.toNat * 2 ^ 4 + mode.toNat * 2 ^ 6 + fan.toNat * 2 ^ 9 + dir.toNat * 2 ^ 12 + temp.toNat * 2 ^ 16 ∧
      t.frameV = true ∧ t.dataV = false ∧ t.schedV = false ∧ t.err = .none ∧
      t.cfg = s.cfg ∧ t.data = s.data ∧ t.schedR = s.schedR ∧ t.emitDone = s.emitDone ∧ t.errSeen = s.errSeen ∧
      t.emitPhase = s.emitPhase ∧ t.emitIdx = s.emitIdx ∧ t.emitResult = s.emitResult ∧ t.handles = s.handles ∧
      t.port = s.port ∧ t.turns = s.turns ∧ t.trace = s.trace ∧ t.staged = s.staged

/-- Every host word ENCODE does not own reads as before. Rests on 10_state.md §8 (R38); 20_memory.md §1 (R51, R57). -/
def Obligations.EncodeLeavesOtherHostWordsAlone : Prop :=
  ∀ (s : State) (power : BitVec 2) (mode fan dir : BitVec 3) (temp : BitVec 8),
    ∃ t, exec (.encode power mode fan dir temp) s = .next t ∧
      (∀ a : Addr, a.toNat ≠ 0 → a.toNat ≠ 1 → a.toNat ≠ 2 → a.toNat ≠ 4 → a.toNat ≠ 5 → ¬(0x010 ≤ a.toNat ∧ a.toNat ≤ 0x021) →
        hostRead a t = hostRead a s) ∧
      hostRead 4#12 t = 0#32 ∧ hostRead 5#12 t = 0#32 ∧
      ∀ k : Nat, k ≠ 1 → k ≠ 2 → k ≠ 3 → ¬(8 ≤ k ∧ k ≤ 11) → (hostRead 0#12 t).getLsbD k = (hostRead 0#12 s).getLsbD k

/-- ENCODE's results do not depend on the state it starts from. Formalises R113. -/
def Obligations.EncodeDependsOnlyOnTheWordAndCfg : Prop :=
  ∀ (s s' : State) (power : BitVec 2) (mode fan dir : BitVec 3) (temp : BitVec 8), s.cfg = s'.cfg →
    ∃ t t', exec (.encode power mode fan dir temp) s = .next t ∧ exec (.encode power mode fan dir temp) s' = .next t' ∧
      t.frame = t'.frame ∧ t.csum = t'.csum ∧ t.settings = t'.settings ∧
      ∃ u u', exec .translate t = .next u ∧ exec .translate t' = .next u' ∧ u.data = u'.data

/-- Codes and temperatures that give identical Frames. Rests on 40_field_encoder.md §3 (R112 (a), (b), (d)). -/
def Obligations.SettingsTheReceiverCannotTellApart : Prop :=
  ∀ (p : Params) (power power' : BitVec 2) (mode mode' fan fan' dir dir' : BitVec 3) (temp temp' : BitVec 8),
    (power = power' ∨ (power.toNat ≠ 1 ∧ power'.toNat ≠ 1)) →
    (mode = mode' ∨ (2 ≤ mode.toNat ∧ 2 ≤ mode'.toNat)) →
    (fan = fan' ∨ ((fan.toNat = 0 ∨ 4 ≤ fan.toNat) ∧ (fan'.toNat = 0 ∨ 4 ≤ fan'.toNat))) →
    (dir = dir' ∨ ((dir.toNat = 0 ∨ dir.toNat = 7) ∧ (dir'.toNat = 0 ∨ dir'.toNat = 7))) →
    (temp = temp' ∨ ((temp.toInt = 22 ∨ temp.toInt < 16 ∨ 31 < temp.toInt) ∧ (temp'.toInt = 22 ∨ temp'.toInt < 16 ∨ 31 < temp'.toInt))) →
    encodedFrame p power mode fan dir temp = encodedFrame p power' mode' fan' dir' temp'

/-- CHECKSUM writes the checksum of bytes 0 to 16 and nothing else but ERR. Formalises R131. -/
def Obligations.ChecksumRecomputesByte17 : Prop :=
  ∀ s : State, ∃ t, exec .checksum s = .next t ∧
      num t.frame[17] = (∑ b : Fin 17, num s.frame[b.val]) % 256 ∧ t.csum.toNat = num t.frame[17] ∧
      (∀ k : Nat, k < 8 → symbol t.frame[17] k = decide ((∑ b : Fin 17, num s.frame[b.val]) / 2 ^ k % 2 = 1)) ∧
      (∀ (b : Nat) (h : b < 17), t.frame[b] = s.frame[b]) ∧
      t = { s with frame := t.frame, csum := t.csum, err := .none }

/-- Every host word but STATUS, CSUM and Frame byte 17 reads as before after CHECKSUM. Rests on 41_checksum.md (R130,
R133); 10_state.md §8 (R38). -/
def Obligations.ChecksumLeavesOtherHostWordsAlone : Prop :=
  ∀ s : State, ∃ t, exec .checksum s = .next t ∧
      (∀ a : Addr, a.toNat ≠ 0 → a.toNat ≠ 1 → a.toNat ≠ 0x021 → hostRead a t = hostRead a s) ∧
      (∀ k : Nat, ¬(8 ≤ k ∧ k ≤ 11) → (hostRead 0#12 t).getLsbD k = (hostRead 0#12 s).getLsbD k) ∧
      hostRead 0x001#12 t = hostRead 0x021#12 t

/-- CHECKSUM leaves FRAME and CSUM as they are wherever the checksum invariant holds. Formalises R132. -/
def Obligations.ChecksumChangesNoFrameWhoseChecksumHolds : Prop :=
  (∀ s : State, s.ChecksumHolds → exec .checksum s = .next { s with err := .none }) ∧
  (∀ (c : Cfg) (cmds : List Word) (env : List Turn) (s : State), Reaches { State.afterReset c with port := cmds, turns := env } s →
    exec .checksum s = .next { s with err := .none })

/-- The bit-reversal convention: num and sym8 are inverse. Formalises R13. -/
def Obligations.NumericValueTakesTheFirstSymbolAsLeastSignificant : Prop :=
  (∀ b : Byte, num b = ∑ s : Fin 8, (if symbol b s.val then 2 ^ s.val else 0)) ∧ (∀ b : Byte, num b < 256) ∧
  (∀ (v s : Nat), v < 256 → s < 8 → symbol (sym8 v) s = decide (v / 2 ^ s % 2 = 1)) ∧
  (∀ v : Nat, v < 256 → num (sym8 v) = v) ∧ (∀ b : Byte, sym8 (num b) = b)

/-- TRANSLATE writes the pair of every Frame bit in transmission order. Formalises R141, R142. -/
def Obligations.TranslateBuildsTheDataSegment : Prop :=
  ∀ s : State, ∃ t, exec .translate s = .next t ∧
      (∀ (b k : Nat) (hb : b < 18) (hk : k < 8),
        t.data[2 * (8 * b + k)] = s.cfg.params.timing.bitOn ∧
        t.data[2 * (8 * b + k) + 1] =
          if symbol s.frame[b] k then s.cfg.params.timing.oneOff else s.cfg.params.timing.zeroOff) ∧
      t = { s with data := t.data, dataV := true, schedV := false, err := .none }

/-- Every host word TRANSLATE does not own reads as before. Rests on 10_state.md §8 (R38); 42_pulse_translator.md
(R142). -/
def Obligations.TranslateLeavesOtherHostWordsAlone : Prop :=
  ∀ s : State, ∃ t, exec .translate s = .next t ∧
      (∀ a : Addr, a.toNat ≠ 0 → a.toNat ≠ 4 → a.toNat ≠ 5 → ¬(0x100 ≤ a.toNat ∧ a.toNat < 0x220) → hostRead a t = hostRead a s) ∧
      ∀ k : Nat, k ≠ 2 → k ≠ 3 → ¬(8 ≤ k ∧ k ≤ 11) → (hostRead 0#12 t).getLsbD k = (hostRead 0#12 s).getLsbD k

/-- Different Frames have different Data segments. Rests on 42_pulse_translator.md (R143 (d)). -/
def Obligations.DataSegmentDeterminesTheFrame : Prop :=
  ∀ (c : Cfg) (fr fr' : Frame), translateFrame c.params.timing fr = translateFrame c.params.timing fr' → fr = fr'

/-- The durations of a Data segment add up as the spec says. Rests on 42_pulse_translator.md (R143 (c)). -/
def Obligations.DataSegmentDurationSum : Prop :=
  ∀ (tm : Timing) (fr : Frame) (n1 : Nat),
    n1 = ((List.range 144).filter (fun i => symbol (fr.getD (i / 8) 0#8) (i % 8))).length →
    ((translateFrame tm fr).toList.map BitVec.toNat).sum =
      144 * tm.bitOn.toNat + n1 * tm.oneOff.toNat + (144 - n1) * tm.zeroOff.toNat

/-- SEQUENCE with a non-negative count and a Data segment fixes the repeat count. Rests on 43_sequencer.md (R150);
20_memory.md §1 (R57). -/
def Obligations.SequenceFixesTheRepeatCount : Prop :=
  ∀ (s : State) (rep : BitVec 8), 0 ≤ rep.toInt → s.dataV = true → ∃ t, exec (.sequence rep) s = .next t ∧
      t.schedR = rep ∧ t.schedV = true ∧ t = { s with schedR := rep, schedV := true, err := .none } ∧
      ((hostRead 3#12 t).toNat : Int) = rep.toInt ∧ ((hostRead 4#12 t).toNat : Int) = 3 * rep.toInt + 3 ∧
      ((hostRead 5#12 t).toNat : Int) = 292 * (rep.toInt + 1) ∧
      ∀ a : Addr, a.toNat ≠ 0 → a.toNat ≠ 3 → a.toNat ≠ 4 → a.toNat ≠ 5 → hostRead a t = hostRead a s

/-- SEQUENCE rejects a negative count first, then missing data, and writes only ERR and ERR_SEEN. Formalises R151,
R158. -/
def Obligations.SequenceRejectsInFixedPriority : Prop :=
  (∀ (s : State) (rep : BitVec 8), rep.toInt < 0 →
    exec (.sequence rep) s = .next { s with err := .negRepeat, errSeen := true }) ∧
  (∀ (s : State) (rep : BitVec 8), 0 ≤ rep.toInt → s.dataV = false →
    exec (.sequence rep) s = .next { s with err := .nodata, errSeen := true })

/-- Every rejection is a no-op but for ERR and ERR_SEEN. Rests on 60_exceptions.md §1 (R202, R203). -/
def Obligations.RejectionWritesOnlyErrAndErrSeen : Prop :=
  ∀ (i : Instr) (s t : State), exec i s = .next t → t.err ≠ .none → i ≠ .emit ∨ s.schedV = false →
    t = { s with err := t.err, errSeen := true } ∧ (∀ a : Addr, a.toNat ≠ 0 → hostRead a t = hostRead a s) ∧
    ((∃ rep, i = .sequence rep ∧ (t.err = .negRepeat ∨ t.err = .nodata)) ∨ (i = .emit ∧ t.err = .nosched))

/-- Segments(r) built by the loop has the closed form of R152. Rests on 43_sequencer.md (R152). -/
def Obligations.SegmentsHaveTheClosedForm : Prop :=
  ∀ r : Nat, (segments r).length = 3 * r + 3 ∧ ∀ k : Nat, k < 3 * r + 3 →
    (segments r)[k]? = some (if k = 3 * r + 2 then .trailer else if k % 3 = 0 then .header else if k % 3 = 1 then .dataSeg else .spacer)

/-- Sizes of the segment list and of the schedule. Formalises R153. -/
def Obligations.ScheduleHasTheStatedSizes : Prop :=
  ∀ (tm : Timing) (data : DataSegment) (r : Nat),
    (segments r).length = 3 * r + 3 ∧ (segments r).count .header = r + 1 ∧ (segments r).count .dataSeg = r + 1 ∧
    (segments r).count .spacer = r ∧ (segments r).count .trailer = 1 ∧
    (schedule tm data r).length = 292 * (r + 1) ∧
    (r ≤ 127 → (segments r).length ≤ 384 ∧ (schedule tm data r).length ≤ 37376)

/-- EMIT with a current schedule clears its bookkeeping and requests reset. Rests on 44_emitter.md §1 (R170);
10_state.md §5 (R35 (b)), log entry 6. -/
def Obligations.EmitStartsTheTransaction : Prop :=
  ∀ s : State, s.schedV = true → ∃ t, exec .emit s = .next t ∧
      t = { s with emitDone := false, emitIdx := 0#9, emitPhase := .waitReset, trace := s.trace ++ [.reset], staged := [] } ∧
      t.busy = true ∧ t.cmdReady = false ∧
      ∀ a : Addr, a.toNat ≠ 0 → a.toNat ≠ 7 → hostRead a t = hostRead a s

/-- EMIT with SCHED_V = 0 is rejected and issues no request. Formalises R183. -/
def Obligations.EmitWithoutScheduleIsRejected : Prop :=
  ∀ s : State, s.schedV = false → exec .emit s = .next { s with err := .nosched, errSeen := true }

/-- The acknowledgement of reset makes the core stage the first Header. Rests on 44_emitter.md §2 (R172);
43_sequencer.md (R152, R154). The model's own: log entry 6. -/
def Obligations.ResetAnswerStagesTheFirstHeader : Prop :=
  ∀ s : State, s.emitPhase = .waitReset → s.Answered .ack →
    step s = .next { s with
      turns := s.turns.tail, emitPhase := .waitStage,
      trace := s.trace ++ [.stage [s.cfg.params.timing.hdrOn, s.cfg.params.timing.hdrOff]] }

/-- A negative stage answer ends the EMIT with STAGE_FAIL and no further request. Rests on 44_emitter.md §2 (R173,
R177). -/
def Obligations.StageFailureEndsTheEmit : Prop :=
  ∀ (s : State) (h : Word), s.emitPhase = .waitStage → s.Answered (.handle h) → h.toInt < 0 →
    step s = .next { s with
      turns := s.turns.tail, emitPhase := .idle, emitResult := h, err := .stageFail, errSeen := true }

/-- A non-negative stage answer is stored, counted, and the next instance staged or the list transmitted. Rests on
44_emitter.md §2 (R173); 43_sequencer.md (R152, R154); 10_state.md §5 (R35 (b)). The model's own: log entry 6. -/
def Obligations.HandleAnswerStoresItAndGoesOn : Prop :=
  ∀ (s : State) (h : Word) (k : Nat), s.emitPhase = .waitStage → s.Answered (.handle h) → 0 ≤ h.toInt → 0 ≤ s.schedR.toInt →
    s.emitIdx.toNat = k → k < 3 * s.schedR.toInt.toNat + 3 → ∃ t, step s = .next t ∧
      t.handles[k]? = some h ∧ (∀ j : Nat, j ≠ k → t.handles[j]? = s.handles[j]?) ∧ t.emitIdx.toNat = k + 1 ∧
      (k + 1 < 3 * s.schedR.toInt.toNat + 3 → t.emitPhase = .waitStage ∧
        ∃ kind, (segments s.schedR.toInt.toNat)[k + 1]? = some kind ∧
          t.trace = s.trace ++ [.stage (dur s.cfg.params.timing s.data kind)]) ∧
      (k + 1 = 3 * s.schedR.toInt.toNat + 3 → t.emitPhase = .waitTx ∧
        t.trace = s.trace ++ [.transmit (t.handles.toList.take (3 * s.schedR.toInt.toNat + 3))]) ∧
      (∃ kind, (segments s.schedR.toInt.toNat)[k]? = some kind ∧
        t.staged = s.staged ++ [(h, dur s.cfg.params.timing s.data kind)]) ∧
      t = { s with turns := s.turns.tail, handles := t.handles, emitIdx := t.emitIdx, emitPhase := t.emitPhase, trace := t.trace,
                   staged := t.staged }

/-- Every transmit status ends the EMIT with ERR = NONE and is stored verbatim. Formalises R175. -/
def Obligations.TransmitStatusIsStoredUninterpreted : Prop :=
  ∀ (s : State) (st : Word), s.emitPhase = .waitTx → s.Answered (.status st) →
    step s = .next { s with
      turns := s.turns.tail, emitResult := st, emitDone := true, emitPhase := .idle, err := .none }

/-- A whole EMIT: 3r + 6 steps, the exact trace, and payloads that concatenate to the schedule. Rests on 44_emitter.md
§3 (R178); 70_reset_and_hazards.md §3 (R236); 43_sequencer.md (R152). The model's own: log entry 4. -/
def Obligations.WholeEmitTransmitsTheSchedule : Prop :=
  ∀ (s : State) (ws : List Word) (r : Nat) (hs : List Word) (st : Word) (later : List Turn),
    s.busy = false → s.schedV = true → s.schedR.toInt = r → s.port = 5#32 :: ws → hs.length = 3 * r + 3 →
    (∀ h ∈ hs, 0 ≤ h.toInt) →
    s.turns = { reply := none } :: { reply := some ⟨s.trace.length, .ack⟩ } ::
      (hs.zipIdx.map (fun p => { reply := some ⟨s.trace.length + 1 + p.2, .handle p.1⟩ }) ++
        { reply := some ⟨s.trace.length + 1 + (3 * r + 3), .status st⟩ } :: later) →
    ∃ t, Sys2Proof.core.run (3 * r + 6) s = .next t ∧
      (∃ reqs, t.trace = s.trace ++ reqs ∧
        reqs = .reset :: ((segments r).map (fun kind => .stage (dur s.cfg.params.timing s.data kind)) ++ [.transmit hs]) ∧
        (stagedPayloads reqs).flatten = schedule s.cfg.params.timing s.data r) ∧
      t.handles.toList.take (3 * r + 3) = hs ∧ t.emitIdx.toNat = 3 * r + 3 ∧ t.emitResult = st ∧ t.emitDone = true ∧
      t.err = .none ∧ t.busy = false ∧ t.port = ws ∧ t.turns = later

/-- An EMIT whose instance k fails records reset and stage(S_0) to stage(S_k) and nothing more. Rests on 44_emitter.md
§2 and §3 (R173, R177, R178); 60_exceptions.md §1 (R208). The model's own: log entry 4. -/
def Obligations.FailedEmitStopsAtTheFailingInstance : Prop :=
  ∀ (s : State) (ws : List Word) (r : Nat) (hs : List Word) (code : Word) (later : List Turn),
    s.busy = false → s.schedV = true → s.schedR.toInt = r → s.port = 5#32 :: ws → hs.length < 3 * r + 3 →
    (∀ h ∈ hs, 0 ≤ h.toInt) → code.toInt < 0 →
    s.turns = { reply := none } :: { reply := some ⟨s.trace.length, .ack⟩ } ::
      (hs.zipIdx.map (fun p => { reply := some ⟨s.trace.length + 1 + p.2, .handle p.1⟩ }) ++
        { reply := some ⟨s.trace.length + 1 + hs.length, .handle code⟩ } :: later) →
    ∃ t, Sys2Proof.core.run (hs.length + 3) s = .next t ∧
      t.trace = s.trace ++ .reset ::
        ((segments r).take (hs.length + 1)).map (fun kind => .stage (dur s.cfg.params.timing s.data kind)) ∧
      t.handles.toList.take hs.length = hs ∧ t.emitIdx.toNat = hs.length ∧ t.emitResult = code ∧ t.emitDone = false ∧
      t.err = .stageFail ∧ t.errSeen = true ∧ t.busy = false ∧ t.port = ws ∧ t.turns = later

/-- Every step keeps the spec's invariants. Rests on 10_state.md §8 (R39, R40); 70_reset_and_hazards.md §1 (R234);
44_emitter.md §2 (R174). The model's own: log entries 6 and 21. -/
def Obligations.EveryStepKeepsTheInvariant : Prop :=
  ∀ s t : State, s.Inv → step s = .next t → t.Inv

/-- The invariants hold right after reset. Rests on 70_reset_and_hazards.md §1 (R234). -/
def Obligations.ResetMeetsTheInvariant : Prop :=
  State.reset.Inv ∧ ∀ c : Cfg, (State.afterReset c).Inv

/-- In every state a run from reset reaches the checksum and valid-bit relations hold. Formalises R40. -/
def Obligations.ReachableStatesMeetTheSpecsInvariants : Prop :=
  ∀ (c : Cfg) (cmds : List Word) (env : List Turn) (t : State),
    Reaches { State.afterReset c with port := cmds, turns := env } t →
      num t.frame[17] = (∑ b : Fin 17, num t.frame[b.val]) % 256 ∧ t.csum.toNat = num t.frame[17] ∧
      (t.dataV = true → t.data = translateFrame t.cfg.params.timing t.frame) ∧
      (t.schedV = true → t.dataV = true ∧ 0 ≤ t.schedR.toInt ∧ t.schedR.toInt ≤ 127) ∧
      (t.busy = true → t.schedV = true)

/-- Outside reset only an accepted ENCODE or CHECKSUM changes FRAME or CSUM, and CHECKSUM only byte 17. Rests on
10_state.md §1 and §8 (R21, R39). -/
def Obligations.FrameIsWrittenOnlyByEncodeAndChecksum : Prop :=
  ∀ s t : State, step s = .next t → s.turnNow.reset = false → (t.frame ≠ s.frame ∨ t.csum ≠ s.csum) →
    ∃ w ws, s.Accepts w ws ∧
      ((∃ power mode fan dir temp, decode w = .ok (.encode power mode fan dir temp)) ∨
       (decode w = .ok .checksum ∧ ∀ (b : Nat) (h : b < 17), t.frame[b] = s.frame[b]))

/-- Outside reset only TRANSLATE changes DATA, only ENCODE SETTINGS, only SEQUENCE SCHED_R; nothing changes CFG. Rests
on 10_state.md §8 (R38); 00_scope.md §5 (R9). -/
def Obligations.DataIsWrittenOnlyByTranslateAndCfgNever : Prop :=
  ∀ s t : State, step s = .next t → t.cfg = s.cfg ∧ (s.turnNow.reset = false →
    (t.data ≠ s.data → ∃ w ws, s.Accepts w ws ∧ decode w = .ok .translate) ∧
    (t.settings ≠ s.settings → ∃ w ws, s.Accepts w ws ∧ ∃ power mode fan dir temp, decode w = .ok (.encode power mode fan dir temp)) ∧
    (t.schedR ≠ s.schedR → ∃ w ws, s.Accepts w ws ∧ ∃ rep, decode w = .ok (.sequence rep)))

/-- ERR_SEEN is set exactly by a rejection or a staging failure and cleared only by reset; ERR holds during an EMIT.
Rests on 60_exceptions.md §1 (R201, R203, R204). -/
def Obligations.ErrSeenIsStickyAndErrHoldsDuringAnEmit : Prop :=
  ∀ s t : State, step s = .next t → s.turnNow.reset = false →
    (s.errSeen = true → t.errSeen = true) ∧ (s.busy = true → t.busy = true → t.err = s.err) ∧
    (s.RecordsError → t.errSeen = true ∧ t.err ≠ .none ∧ (s.busy = true → t.err = .stageFail)) ∧
    (¬s.RecordsError → t.errSeen = s.errSeen ∧ (t.err = s.err ∨ t.err = .none))

/-- While an EMIT is in progress no step changes what it sends. Rests on 44_emitter.md §4 (R184 (a)); 60_exceptions.md
§2 (R207 (d)). -/
def Obligations.AnEmitInProgressLeavesThePipelineAlone : Prop :=
  ∀ s t : State, s.busy = true → s.turnNow.reset = false → step s = .next t →
    t.settings = s.settings ∧ t.frame = s.frame ∧ t.csum = s.csum ∧ t.data = s.data ∧ t.schedR = s.schedR ∧
    t.frameV = s.frameV ∧ t.dataV = s.dataV ∧ t.schedV = s.schedV ∧ t.cfg = s.cfg ∧ t.port = s.port

/-- At most one request a step, only on an answer to the previous one, in the order reset, stage, transmit. Rests on
20_memory.md §4 (R67); 44_emitter.md §1 (R171). -/
def Obligations.RequestsAreIssuedOneAtATimeInOrder : Prop :=
  ∀ s t : State, step s = .next t → t.trace = s.trace ∨
    (t.trace = s.trace ++ [.reset] ∧ s.outstanding = none ∧ t.emitPhase = .waitReset) ∨
    (∃ l, t.trace = s.trace ++ [.stage l] ∧ t.emitPhase = .waitStage ∧
      ((s.emitPhase = .waitReset ∧ s.Answered .ack) ∨ (s.emitPhase = .waitStage ∧ ∃ h, s.Answered (.handle h)))) ∨
    (∃ hs, t.trace = s.trace ++ [.transmit hs] ∧ t.emitPhase = .waitTx ∧ s.emitPhase = .waitStage ∧ ∃ h, s.Answered (.handle h))

/-- The register map: what each listed address returns. Formalises R51, R53, R54, R55, R56, R57. -/
def Obligations.HostReadsFollowTheRegisterMap : Prop :=
  ∀ s : State,
    (∀ (b : Nat) (hb : b < 18), (hostRead (BitVec.ofNat 12 (0x010 + b)) s).toNat = num s.frame[b] ∧
      ∀ k : Nat, (hostRead (BitVec.ofNat 12 (0x010 + b)) s).getLsbD k = symbol s.frame[b] k) ∧
    (∀ (k : Nat) (hk : k < 288), hostRead (BitVec.ofNat 12 (0x100 + k)) s = s.data[k]) ∧
    (∀ (k : Nat) (hk : k < 384), hostRead (BitVec.ofNat 12 (0x400 + k)) s = s.handles[k]) ∧
    (hostRead 1#12 s).toNat = s.csum.toNat ∧ hostRead 2#12 s = s.settings ∧ (hostRead 3#12 s).toNat = s.schedR.toNat ∧
    hostRead 6#12 s = s.emitResult ∧ (hostRead 7#12 s).toNat = s.emitIdx.toNat ∧
    (s.schedV = true → 0 ≤ s.schedR.toInt → ((hostRead 4#12 s).toNat : Int) = 3 * s.schedR.toInt + 3 ∧
      ((hostRead 5#12 s).toNat : Int) = 292 * (s.schedR.toInt + 1)) ∧
    (s.schedV = false → hostRead 4#12 s = 0#32 ∧ hostRead 5#12 s = 0#32) ∧
    (hostRead 0x030#12 s = s.cfg.params.timing.hdrOn ∧ hostRead 0x031#12 s = s.cfg.params.timing.hdrOff ∧
      hostRead 0x032#12 s = s.cfg.params.timing.bitOn ∧ hostRead 0x033#12 s = s.cfg.params.timing.zeroOff ∧
      hostRead 0x034#12 s = s.cfg.params.timing.oneOff ∧ hostRead 0x035#12 s = s.cfg.params.timing.rptOn ∧
      hostRead 0x036#12 s = s.cfg.params.timing.rptOff) ∧
    hostRead 0#12 s = s.status ∧
    (∀ a : Addr, ¬(a.toNat ≤ 0x007 ∨ (0x010 ≤ a.toNat ∧ a.toNat ≤ 0x010 + 17) ∨ (0x030 ≤ a.toNat ∧ a.toNat ≤ 0x036) ∨
      (0x100 ≤ a.toNat ∧ a.toNat ≤ 0x100 + 287) ∨ (0x400 ≤ a.toNat ∧ a.toNat ≤ 0x400 + 383)) → hostRead a s = 0#32)

/-- Reserved host addresses read as zero in every state. Rests on 20_memory.md §1 and §3 (R52, R63). -/
def Obligations.UnlistedAddressesReadAsZero : Prop :=
  ∀ (s : State) (a : Addr),
    ((0x008 ≤ a.toNat ∧ a.toNat ≤ 0x00F) ∨ (0x022 ≤ a.toNat ∧ a.toNat ≤ 0x02F) ∨ (0x037 ≤ a.toNat ∧ a.toNat ≤ 0x0FF) ∨
      (0x220 ≤ a.toNat ∧ a.toNat ≤ 0x3FF) ∨ 0x580 ≤ a.toNat) → hostRead a s = 0#32

/-- STATUS mirrors the registers at the stated bits and its reserved bits read zero. Rests on 10_state.md §4 (R30,
R32); 60_exceptions.md §1 (R201). -/
def Obligations.StatusWordHasTheStatedFields : Prop :=
  ∀ s : State,
    (hostRead 0#12 s).toNat = (if s.emitPhase = .idle then 0 else 1) + 2 * s.frameV.toNat + 4 * s.dataV.toNat + 8 * s.schedV.toNat +
      16 * s.emitDone.toNat + 32 * s.errSeen.toNat +
      64 * (match s.emitPhase with | .idle => 0 | .waitReset => 1 | .waitStage => 2 | .waitTx => 3) +
      256 * (match s.err with | .none => 0 | .illegal => 1 | .nodata => 2 | .nosched => 3 | .negRepeat => 4 | .stageFail => 5)

/-- A configuration that fails a named check is refused by that check's name. Rests on 10_state.md §2 (R25, R26);
70_reset_and_hazards.md §1 (R233). The model's own: log entry 7. -/
def Obligations.OnlyAWellFormedConfigurationIsBuilt : Prop :=
  ∀ p : Params,
    let m := p.fieldMap
    let fits := m.powerOff ≤ 7 ∧ m.modeAOff ≤ 6 ∧ m.tempOff ≤ 4 ∧ m.modeBOff ≤ 6 ∧ m.fanOff ≤ 6 ∧ m.dirOff ≤ 5
    let disjoint := ∀ k : Nat, ¬((m.fanOff ≤ k ∧ k < m.fanOff + 2) ∧ (m.dirOff ≤ k ∧ k < m.dirOff + 3))
    let one := p.timing.zeroOff.toNat < p.timing.oneOff.toNat
    let sep := p.timing.bitOn.toNat < p.timing.zeroOff.toNat
    (fits ∧ disjoint ∧ one ∧ sep → ∃ c : Cfg, c.params = p ∧ build p = .next (State.afterReset c)) ∧
    (¬fits → build p = .refused (.badConfig .fmFits)) ∧
    (fits → ¬disjoint → build p = .refused (.badConfig .fmDisjoint9)) ∧
    (fits → disjoint → ¬one → build p = .refused (.badConfig .tmOneGtZero)) ∧
    (fits → disjoint → one → ¬sep → build p = .refused (.badConfig .tmZeroGtSep))

/-- The assembler's words decode to the operands written, names stand for their codes, and out-of-range operands are
refused. Rests on 30_encoding.md §4 (R79); 40_field_encoder.md §2 (R104, R105, R108, R109). -/
def Obligations.AssembledLinesDecodeToTheirOperands : Prop :=
  (powerCode (.name .off) = 0 ∧ powerCode (.name .on) = 1 ∧ ∀ k : Nat, powerCode (.code k) = k) ∧
  (modeCode (.name .heat) = 0 ∧ modeCode (.name .dry) = 1 ∧ modeCode (.name .cold) = 2 ∧ modeCode (.name .auto) = 3 ∧
    ∀ k : Nat, modeCode (.code k) = k) ∧
  (fanCode (.name .auto) = 0 ∧ fanCode (.name .low) = 1 ∧ fanCode (.name .middle) = 2 ∧ fanCode (.name .high) = 3 ∧
    ∀ k : Nat, fanCode (.code k) = k) ∧
  (dirCode (.name .auto) = 0 ∧ dirCode (.name .lowest) = 1 ∧ dirCode (.name .low) = 2 ∧ dirCode (.name .middle) = 3 ∧
    dirCode (.name .high) = 4 ∧ dirCode (.name .highest) = 5 ∧ dirCode (.name .loop) = 6 ∧ ∀ k : Nat, dirCode (.code k) = k) ∧
  (∀ st : AsmSettings, powerCode st.power < 4 → modeCode st.mode < 8 → fanCode st.fan < 8 → dirCode st.dir < 8 →
    -128 ≤ st.temp → st.temp ≤ 127 → ∃ w power mode fan dir temp, assembleLine (.encode st) = .ok [w] ∧
      decode w = .ok (.encode power mode fan dir temp) ∧ power.toNat = powerCode st.power ∧ mode.toNat = modeCode st.mode ∧
      fan.toNat = fanCode st.fan ∧ dir.toNat = dirCode st.dir ∧ tempOf temp = st.temp) ∧
  (∀ r : Int, -128 ≤ r → r ≤ 127 → ∃ w rep, assembleLine (.sequence r) = .ok [w] ∧ decode w = .ok (.sequence rep) ∧ repOf rep = r) ∧
  (∀ n : Nat, n < 2 ^ 32 → ∃ w : Word, assembleLine (.word n) = .ok [w] ∧ w.toNat = n) ∧
  ((∃ w, assembleLine .checksum = .ok [w] ∧ decode w = .ok .checksum) ∧
    (∃ w, assembleLine .translate = .ok [w] ∧ decode w = .ok .translate) ∧
    ∃ w, assembleLine .emit = .ok [w] ∧ decode w = .ok .emit) ∧
  (∀ r : Int, (r < -128 ∨ 127 < r) → assembleLine (.sequence r) = .error .repRange ∧ assembleLine (.resend r) = .error .repRange ∧
    ∀ st : AsmSettings, ∃ c, assembleLine (.send st r) = .error c) ∧
  (∀ st : AsmSettings, (4 ≤ powerCode st.power ∨ 8 ≤ modeCode st.mode ∨ 8 ≤ fanCode st.fan ∨ 8 ≤ dirCode st.dir ∨
    st.temp < -128 ∨ 127 < st.temp) → ∃ c, assembleLine (.encode st) = .error c ∧ ∀ r : Int, assembleLine (.send st r) = .error c) ∧
  (∀ n : Nat, 2 ^ 32 ≤ n → assembleLine (.word n) = .error .wordRange)

/-- SEND, RESEND and VERIFY assemble to their expansions. Formalises R80. -/
def Obligations.PseudoInstructionsExpandAsStated : Prop :=
  (∀ (st : AsmSettings) (r : Int), assembleLine (.send st r) = assembleProgram [.encode st, .translate, .sequence r, .emit]) ∧
  (∀ r : Int, assembleLine (.resend r) = assembleProgram [.sequence r, .emit]) ∧
  assembleLine .verify = assembleLine .checksum
end

