-- ==== Sys2Proof/Laws/Encoding.lean ====
section
/-! SUPPORT. The bits and the value of an encoded command (R72, R73). -/

namespace Sys2Proof

/-- Two words side by side, as numbers. -/
theorem toNat_append_eq {m n : Nat} (x : BitVec m) (y : BitVec n) : (x ++ y).toNat = x.toNat * 2 ^ n + y.toNat := by
  rw [BitVec.toNat_append, ← Nat.shiftLeft_add_eq_or_of_lt y.isLt, Nat.shiftLeft_eq]

/-- A bit slice is the vector it agrees with bit by bit. -/
theorem extractLsb'_eq_of_getLsbD {w : Word} {lo n : Nat} {x : BitVec n} (h : ∀ i, i < n → w.getLsbD (lo + i) = x.getLsbD i) :
    w.extractLsb' lo n = x := by
  apply BitVec.eq_of_getLsbD_eq
  intro i hi
  simp [hi, h i hi]

/-- The value of an ENCODE word: every field at its place (R72). -/
theorem encode_encode_toNat (power : BitVec 2) (mode fan dir : BitVec 3) (temp : BitVec 8) :
    (encode (.encode power mode fan dir temp)).toNat =
      1 + power.toNat * 2 ^ 4 + mode.toNat * 2 ^ 6 + fan.toNat * 2 ^ 9 + dir.toNat * 2 ^ 12 + temp.toNat * 2 ^ 16 := by
  simp only [encode, toNat_append_eq, BitVec.toNat_ofNat]
  omega

/-- The value of a SEQUENCE word (R73). -/
theorem encode_sequence_toNat (rep : BitVec 8) : (encode (.sequence rep)).toNat = 4 + rep.toNat * 2 ^ 16 := by
  simp only [encode, toNat_append_eq, BitVec.toNat_ofNat]
  omega

/-- The bits of an ENCODE word (R72). -/
theorem encode_encode_getLsbD (power : BitVec 2) (mode fan dir : BitVec 3) (temp : BitVec 8) (i : Nat) :
    (encode (.encode power mode fan dir temp)).getLsbD i =
      if i < 4 then (1#4).getLsbD i else if i < 6 then power.getLsbD (i - 4) else if i < 9 then mode.getLsbD (i - 6)
      else if i < 12 then fan.getLsbD (i - 9) else if i < 15 then dir.getLsbD (i - 12) else if i < 16 then false
      else if i < 24 then temp.getLsbD (i - 16) else false := by
  have e : i - 4 - 2 = i - 6 ∧ i - 6 - 3 = i - 9 ∧ i - 9 - 3 = i - 12 ∧ i - 12 - 3 = i - 15 ∧ i - 15 - 1 = i - 16 := by omega
  have c : (i - 4 < 2 ↔ i < 6) ∧ (i - 6 < 3 ↔ i < 9) ∧ (i - 9 < 3 ↔ i < 12) ∧ (i - 12 < 3 ↔ i < 15) ∧ (i - 15 < 1 ↔ i < 16) ∧
      (i - 16 < 8 ↔ i < 24) := by omega
  simp only [encode, BitVec.getLsbD_append, e.1, e.2.1, e.2.2.1, e.2.2.2.1, e.2.2.2.2]
  simp [c.1, c.2.1, c.2.2.1, c.2.2.2.1, c.2.2.2.2.1, c.2.2.2.2.2]

/-- The bits of a SEQUENCE word (R73). -/
theorem encode_sequence_getLsbD (rep : BitVec 8) (i : Nat) :
    (encode (.sequence rep)).getLsbD i =
      if i < 4 then (4#4).getLsbD i else if i < 16 then false else if i < 24 then rep.getLsbD (i - 16) else false := by
  have e : i - 4 - 12 = i - 16 := by omega
  have c : (i - 4 < 12 ↔ i < 16) ∧ (i - 16 < 8 ↔ i < 24) := by omega
  simp only [encode, BitVec.getLsbD_append, e]
  simp [c.1, c.2]

namespace Machine

/-- The bits SETTINGS keeps: [14:4] and [23:16] (R22). -/
theorem settingsMask_getLsbD (i : Nat) : settingsMask.getLsbD i = decide ((4 ≤ i ∧ i < 15) ∨ (16 ≤ i ∧ i < 24)) := by
  by_cases h : i < 32
  · revert i; decide
  · rw [BitVec.getLsbD_of_ge _ _ (by omega)]
    simp; omega

/-- The value of SETTINGS after an ENCODE (R22). -/
theorem settings_toNat (power : BitVec 2) (mode fan dir : BitVec 3) (temp : BitVec 8) :
    (encode (.encode power mode fan dir temp) &&& settingsMask).toNat =
      power.toNat * 2 ^ 4 + mode.toNat * 2 ^ 6 + fan.toNat * 2 ^ 9 + dir.toNat * 2 ^ 12 + temp.toNat * 2 ^ 16 := by
  have h : encode (.encode power mode fan dir temp) &&& settingsMask = 0#8 ++ temp ++ 0#1 ++ dir ++ fan ++ mode ++ power ++ 0#4 := by
    apply BitVec.eq_of_getLsbD_eq
    intro i _
    have e : i - 4 - 2 = i - 6 ∧ i - 6 - 3 = i - 9 ∧ i - 9 - 3 = i - 12 ∧ i - 12 - 3 = i - 15 ∧ i - 15 - 1 = i - 16 := by omega
    rw [BitVec.getLsbD_and, encode_encode_getLsbD, settingsMask_getLsbD]
    simp only [BitVec.getLsbD_append, e.1, e.2.1, e.2.2.1, e.2.2.2.1, e.2.2.2.2]
    split_ifs <;> first | omega | simp <;> try omega
  rw [h]
  erw [toNat_append_eq, toNat_append_eq, toNat_append_eq, toNat_append_eq, toNat_append_eq, toNat_append_eq, toNat_append_eq]
  simp only [BitVec.toNat_ofNat]
  omega

end Machine
end Sys2Proof
end

