-- ==== Sys2Proof/Laws/Ops.lean ====
section
/-! SUPPORT. What the shared operations over symbols, Frames and segments do, said once. -/

namespace Sys2Proof

/-- What the checks of a configuration say, as inequalities (R25, R26). -/
theorem Cfg.checks (c : Cfg) :
    c.params.fieldMap.powerOff + 1 ≤ 8 ∧ c.params.fieldMap.modeAOff + 2 ≤ 8 ∧ c.params.fieldMap.tempOff + 4 ≤ 8 ∧
    c.params.fieldMap.modeBOff + 2 ≤ 8 ∧ c.params.fieldMap.fanOff + 2 ≤ 8 ∧ c.params.fieldMap.dirOff + 3 ≤ 8 ∧
    (c.params.fieldMap.fanOff + 2 ≤ c.params.fieldMap.dirOff ∨ c.params.fieldMap.dirOff + 3 ≤ c.params.fieldMap.fanOff) ∧
    c.params.timing.zeroOff.toNat < c.params.timing.oneOff.toNat ∧
    c.params.timing.bitOn.toNat < c.params.timing.zeroOff.toNat := by
  have h := c.wf
  simp only [Params.wf, FieldMap.fits, FieldMap.disjoint9, Timing.oneGtZero, Timing.zeroGtSep, Bool.and_eq_true,
    Bool.or_eq_true, decide_eq_true_eq] at h
  omega

end Sys2Proof

namespace Sys2Proof.Machine

/-- Reading a register array by number: the entry inside its bounds, the default outside. -/
theorem vector_getD {α : Type} {n : Nat} (v : Vector α n) (i : Nat) (d : α) : v.getD i d = if h : i < n then v[i] else d := by
  rcases v with ⟨a, rfl⟩
  simp [Vector.getD, Array.getD]

/-! Symbols (R12, R13, R15). -/

theorem symbol_setSymbol (b : Byte) (s : Nat) (v : Bool) (hs : s < 8) (k : Nat) :
    symbol (setSymbol b s v) k = if k = s then v else symbol b k := by
  have hk : b.getLsbD k = (b.getLsbD k && decide (k < 8)) := by
    by_cases h : k < 8
    · simp [h]
    · simp [h, BitVec.getLsbD_of_ge b k (by omega)]
  unfold symbol setSymbol
  cases v <;> by_cases hks : k = s
  · subst hks; simp [hs]
  · simp [hks, hs, Ne.symm hks, BitVec.getLsbD_twoPow]
    intro h; by_contra hc
    rw [BitVec.getLsbD_of_ge b k (by omega)] at h
    simp at h
  · subst hks; simp [hs]
  · simp [hks, Ne.symm hks, BitVec.getLsbD_twoPow]

/-- A pattern written from `off` on stands there, and every other symbol is as before. -/
theorem symbol_putSymbols (p : Pattern) : ∀ (off : Nat) (b : Byte), off + p.length ≤ 8 → ∀ k : Nat,
    symbol (putSymbols off p b) k = if off ≤ k ∧ k < off + p.length then p.getD (k - off) false else symbol b k := by
  induction p with
  | nil => intro off b _ k; simp [putSymbols]; omega
  | cons v vs ih =>
    intro off b h k
    simp only [List.length_cons] at h
    rw [putSymbols, ih (off + 1) _ (by omega) k, symbol_setSymbol _ _ _ (by omega)]
    by_cases h1 : k = off
    · subst h1; simp
    · by_cases h2 : off + 1 ≤ k ∧ k < off + 1 + vs.length
      · obtain ⟨j, rfl⟩ : ∃ j, k = off + 1 + j := ⟨k - (off + 1), by omega⟩
        have e1 : off + 1 + j - off = j + 1 := by omega
        have e2 : off + 1 + j - (off + 1) = j := by omega
        have h3 : off ≤ off + 1 + j ∧ off + 1 + j < off + (vs.length + 1) := by omega
        simp [h2, h3, e1, e2]
      · have h3 : ¬(off ≤ k ∧ k < off + (vs.length + 1)) := by omega
        rw [if_neg h2, if_neg h1]; simp only [List.length_cons]; rw [if_neg h3]

/-- Inside the pattern. -/
theorem symbol_putSymbols_in (p : Pattern) (off : Nat) (b : Byte) (h : off + p.length ≤ 8) (j : Nat) (hj : j < p.length) :
    symbol (putSymbols off p b) (off + j) = p.getD j false := by
  rw [symbol_putSymbols p off b h, if_pos (by omega), Nat.add_sub_cancel_left]

/-- Outside the pattern. -/
theorem symbol_putSymbols_out (p : Pattern) (off : Nat) (b : Byte) (h : off + p.length ≤ 8) (k : Nat)
    (hk : k < off ∨ off + p.length ≤ k) : symbol (putSymbols off p b) k = symbol b k := by
  rw [symbol_putSymbols p off b h, if_neg (by omega)]

theorem symbol_ext (a b : Byte) (h : ∀ s, s < 8 → symbol a s = symbol b s) : a = b :=
  BitVec.eq_of_getLsbD_eq fun i hi => h i hi

/-- `num` is the byte's value as a number: bit `s` is symbol `s`. -/
theorem num_eq_toNat : ∀ b : Byte, num b = b.toNat := by decide +kernel

theorem num_lt (b : Byte) : num b < 256 := by rw [num_eq_toNat]; exact b.isLt

theorem num_sym8 (v : Nat) : num (sym8 v) = v % 256 := by
  rw [num_eq_toNat, sym8, BitVec.toNat_ofNat]

theorem sym8_num (b : Byte) : sym8 (num b) = b := by
  rw [num_eq_toNat, sym8, BitVec.ofNat_toNat, BitVec.setWidth_eq]

theorem symbol_sym8 (v s : Nat) (h : s < 8) : symbol (sym8 v) s = v.testBit s := by
  rw [symbol, sym8, BitVec.getLsbD_ofNat]; simp [h]

/-! Fields of a Frame (R25). -/

theorem put_getElem (m : FieldMap) (f : Field) (p : Pattern) (fr : Frame) (b : Nat) (hb : b < 18) :
    (put m f p fr)[b] = if (byteOf f).val = b then putSymbols (offOf m f) p fr[b] else fr[b] := by
  unfold put
  by_cases h : (byteOf f).val = b
  · subst h; simp
  · simp [h]

theorem powerPat_length (p : BitVec 2) : (powerPat p).length = 1 := by revert p; decide
theorem modeAPat_length (m : BitVec 3) : (modeAPat m).length = 2 := by revert m; decide
theorem modeBPat_length (m : BitVec 3) : (modeBPat m).length = 2 := by revert m; decide
theorem fanPat_length (f : BitVec 3) : (fanPat f).length = 2 := by revert f; decide
theorem dirPat_length (d : BitVec 3) : (dirPat d).length = 3 := by revert d; decide
theorem tempPat_length (t : Int) : (tempPat t).length = 4 := by unfold tempPat; split <;> rfl

/-- Each byte of the packed Frame (R100): the template's, with its fields' patterns written. -/
theorem packedFrame_getElem (p : Params) (power : BitVec 2) (mode fan dir : BitVec 3) (temp : BitVec 8) (b : Nat) (hb : b < 18) :
    (packedFrame p power mode fan dir temp)[b] =
      if b = 5 then putSymbols p.fieldMap.powerOff (powerPat power) p.template[b]
      else if b = 6 then putSymbols p.fieldMap.modeAOff (modeAPat mode) p.template[b]
      else if b = 7 then putSymbols p.fieldMap.tempOff (tempPat (tempOf temp)) p.template[b]
      else if b = 8 then putSymbols p.fieldMap.modeBOff (modeBPat mode) p.template[b]
      else if b = 9 then putSymbols p.fieldMap.dirOff (dirPat dir) (putSymbols p.fieldMap.fanOff (fanPat fan) p.template[b])
      else p.template[b] := by
  simp only [packedFrame, put_getElem, byteOf, offOf]
  rcases (by omega : b = 5 ∨ b = 6 ∨ b = 7 ∨ b = 8 ∨ b = 9 ∨ (b ≠ 5 ∧ b ≠ 6 ∧ b ≠ 7 ∧ b ≠ 8 ∧ b ≠ 9)) with
    rfl | rfl | rfl | rfl | rfl | ⟨h5, h6, h7, h8, h9⟩
  · rfl
  · rfl
  · rfl
  · rfl
  · rfl
  · have e5 : ¬ 5 = b := fun h => h5 h.symm
    have e6 : ¬ 6 = b := fun h => h6 h.symm
    have e7 : ¬ 7 = b := fun h => h7 h.symm
    have e8 : ¬ 8 = b := fun h => h8 h.symm
    have e9 : ¬ 9 = b := fun h => h9 h.symm
    simp [h5, h6, h7, h8, h9, e5, e6, e7, e8, e9]

/-! The checksum (R131). -/

theorem checksum17_lt (fr : Frame) : checksum17 fr < 256 := Nat.mod_lt _ (by decide)

theorem fillChecksum_getElem (fr : Frame) (b : Nat) (hb : b < 18) :
    (fillChecksum fr)[b] = if b = 17 then sym8 (checksum17 fr) else fr[b] := by
  unfold fillChecksum
  by_cases h : b = 17
  · subst h; simp
  · simp [h, Ne.symm h]

/-- Byte 17 never enters the sum, so filling it changes no sum (R134). -/
theorem sum17_fillChecksum (fr : Frame) : sum17 (fillChecksum fr) = sum17 fr := by
  unfold sum17 fillChecksum
  congr 2
  simp [Vector.toList_set, List.take_set_of_le]

theorem checksum17_fillChecksum (fr : Frame) : checksum17 (fillChecksum fr) = checksum17 fr := by
  simp [checksum17, sum17_fillChecksum]

theorem num_fillChecksum_17 (fr : Frame) : num (fillChecksum fr)[17] = checksum17 fr := by
  rw [fillChecksum_getElem]
  simp only [if_true]
  rw [num_sym8, Nat.mod_eq_of_lt (checksum17_lt fr)]

/-- A Frame whose byte 17 already is its checksum is left as it is (R132). -/
theorem fillChecksum_eq_self (fr : Frame) (h : num fr[17] = checksum17 fr) : fillChecksum fr = fr := by
  apply Vector.ext
  intro b hb
  rw [fillChecksum_getElem]
  split
  · subst b; rw [← h, sym8_num]
  · rfl

/-- The sum of R131 as the sum it is. -/
theorem sum17_eq (fr : Frame) : sum17 fr = ∑ b : Fin 17, num fr[b.val] := by
  have h : fr.toList.take 17 = List.ofFn (fun b : Fin 17 => fr[b.val]) := by
    apply List.ext_getElem
    · simp
    · intro i h1 h2; rw [List.getElem_take, List.getElem_ofFn]; rfl
  rw [sum17, h, List.map_ofFn, List.sum_ofFn]
  rfl

/-! The Data segment (R141). -/

theorem translateFrame_even (tm : Timing) (fr : Frame) (i : Nat) (h : i < 144) :
    (translateFrame tm fr)[2 * i] = tm.bitOn := by
  simp [translateFrame]

theorem translateFrame_odd (tm : Timing) (fr : Frame) (i : Nat) (h : i < 144) :
    (translateFrame tm fr)[2 * i + 1] = gapOf tm (symbol fr[i / 8] (i % 8)) := by
  have h3 : (2 * i + 1) / 2 = i := by omega
  simp [translateFrame, flatSymbol, h3]

/-! Segments (R152, R154). -/

theorem segCount_eq (s : State) (h : 0 ≤ repOf s.schedR) : s.segCount = 3 * s.repeatCount + 3 := by
  simp only [State.segCount, State.repeatCount]; omega

theorem repOf_le (rep : BitVec 8) : repOf rep ≤ 127 := by
  have := BitVec.toInt_lt (x := rep); simp [repOf]; omega

theorem segCount_le (s : State) : s.segCount ≤ 384 := by
  have := repOf_le s.schedR
  simp only [State.segCount]; omega

end Sys2Proof.Machine
end

