-- ==== Sys2Proof/Laws/State.lean ====
section
/-! SUPPORT. The fields of the state after each named update: one lemma per field that a proof asks for. -/

namespace Sys2Proof.Machine

@[simp] theorem State.raise_settings (c : ErrCode) (s : State) : (s.raise c).settings = s.settings := rfl
@[simp] theorem State.raise_frame (c : ErrCode) (s : State) : (s.raise c).frame = s.frame := rfl
@[simp] theorem State.raise_csum (c : ErrCode) (s : State) : (s.raise c).csum = s.csum := rfl
@[simp] theorem State.raise_data (c : ErrCode) (s : State) : (s.raise c).data = s.data := rfl
@[simp] theorem State.raise_schedR (c : ErrCode) (s : State) : (s.raise c).schedR = s.schedR := rfl
@[simp] theorem State.raise_frameV (c : ErrCode) (s : State) : (s.raise c).frameV = s.frameV := rfl
@[simp] theorem State.raise_dataV (c : ErrCode) (s : State) : (s.raise c).dataV = s.dataV := rfl
@[simp] theorem State.raise_schedV (c : ErrCode) (s : State) : (s.raise c).schedV = s.schedV := rfl
@[simp] theorem State.raise_emitDone (c : ErrCode) (s : State) : (s.raise c).emitDone = s.emitDone := rfl
@[simp] theorem State.raise_errSeen (c : ErrCode) (s : State) : (s.raise c).errSeen = true := rfl
@[simp] theorem State.raise_err (c : ErrCode) (s : State) : (s.raise c).err = c := rfl
@[simp] theorem State.raise_emitPhase (c : ErrCode) (s : State) : (s.raise c).emitPhase = s.emitPhase := rfl
@[simp] theorem State.raise_emitIdx (c : ErrCode) (s : State) : (s.raise c).emitIdx = s.emitIdx := rfl
@[simp] theorem State.raise_emitResult (c : ErrCode) (s : State) : (s.raise c).emitResult = s.emitResult := rfl
@[simp] theorem State.raise_handles (c : ErrCode) (s : State) : (s.raise c).handles = s.handles := rfl
@[simp] theorem State.raise_cfg (c : ErrCode) (s : State) : (s.raise c).cfg = s.cfg := rfl
@[simp] theorem State.raise_port (c : ErrCode) (s : State) : (s.raise c).port = s.port := rfl
@[simp] theorem State.raise_turns (c : ErrCode) (s : State) : (s.raise c).turns = s.turns := rfl
@[simp] theorem State.raise_trace (c : ErrCode) (s : State) : (s.raise c).trace = s.trace := rfl
@[simp] theorem State.raise_staged (c : ErrCode) (s : State) : (s.raise c).staged = s.staged := rfl

@[simp] theorem State.request_settings (r : Request) (s : State) : (s.request r).settings = s.settings := rfl
@[simp] theorem State.request_frame (r : Request) (s : State) : (s.request r).frame = s.frame := rfl
@[simp] theorem State.request_csum (r : Request) (s : State) : (s.request r).csum = s.csum := rfl
@[simp] theorem State.request_data (r : Request) (s : State) : (s.request r).data = s.data := rfl
@[simp] theorem State.request_schedR (r : Request) (s : State) : (s.request r).schedR = s.schedR := rfl
@[simp] theorem State.request_frameV (r : Request) (s : State) : (s.request r).frameV = s.frameV := rfl
@[simp] theorem State.request_dataV (r : Request) (s : State) : (s.request r).dataV = s.dataV := rfl
@[simp] theorem State.request_schedV (r : Request) (s : State) : (s.request r).schedV = s.schedV := rfl
@[simp] theorem State.request_emitDone (r : Request) (s : State) : (s.request r).emitDone = s.emitDone := rfl
@[simp] theorem State.request_errSeen (r : Request) (s : State) : (s.request r).errSeen = s.errSeen := rfl
@[simp] theorem State.request_err (r : Request) (s : State) : (s.request r).err = s.err := rfl
@[simp] theorem State.request_emitPhase (r : Request) (s : State) : (s.request r).emitPhase = s.emitPhase := rfl
@[simp] theorem State.request_emitIdx (r : Request) (s : State) : (s.request r).emitIdx = s.emitIdx := rfl
@[simp] theorem State.request_emitResult (r : Request) (s : State) : (s.request r).emitResult = s.emitResult := rfl
@[simp] theorem State.request_handles (r : Request) (s : State) : (s.request r).handles = s.handles := rfl
@[simp] theorem State.request_cfg (r : Request) (s : State) : (s.request r).cfg = s.cfg := rfl
@[simp] theorem State.request_port (r : Request) (s : State) : (s.request r).port = s.port := rfl
@[simp] theorem State.request_turns (r : Request) (s : State) : (s.request r).turns = s.turns := rfl
@[simp] theorem State.request_trace (r : Request) (s : State) : (s.request r).trace = s.trace ++ [r] := rfl
@[simp] theorem State.request_staged (r : Request) (s : State) : (s.request r).staged = if r = .reset then [] else s.staged := rfl

@[simp] theorem State.applyReset_settings (s : State) : (s.applyReset).settings = 0#32 := rfl
@[simp] theorem State.applyReset_frame (s : State) : (s.applyReset).frame = Vector.replicate 18 0#8 := rfl
@[simp] theorem State.applyReset_csum (s : State) : (s.applyReset).csum = 0#8 := rfl
@[simp] theorem State.applyReset_data (s : State) : (s.applyReset).data = Vector.replicate 288 0#32 := rfl
@[simp] theorem State.applyReset_schedR (s : State) : (s.applyReset).schedR = 0#8 := rfl
@[simp] theorem State.applyReset_frameV (s : State) : (s.applyReset).frameV = false := rfl
@[simp] theorem State.applyReset_dataV (s : State) : (s.applyReset).dataV = false := rfl
@[simp] theorem State.applyReset_schedV (s : State) : (s.applyReset).schedV = false := rfl
@[simp] theorem State.applyReset_emitDone (s : State) : (s.applyReset).emitDone = false := rfl
@[simp] theorem State.applyReset_errSeen (s : State) : (s.applyReset).errSeen = false := rfl
@[simp] theorem State.applyReset_err (s : State) : (s.applyReset).err = .none := rfl
@[simp] theorem State.applyReset_emitPhase (s : State) : (s.applyReset).emitPhase = .idle := rfl
@[simp] theorem State.applyReset_emitIdx (s : State) : (s.applyReset).emitIdx = 0#9 := rfl
@[simp] theorem State.applyReset_emitResult (s : State) : (s.applyReset).emitResult = 0#32 := rfl
@[simp] theorem State.applyReset_handles (s : State) : (s.applyReset).handles = Vector.replicate 384 0#32 := rfl
@[simp] theorem State.applyReset_cfg (s : State) : (s.applyReset).cfg = s.cfg := rfl
@[simp] theorem State.applyReset_port (s : State) : (s.applyReset).port = s.port := rfl
@[simp] theorem State.applyReset_turns (s : State) : (s.applyReset).turns = s.turns := rfl
@[simp] theorem State.applyReset_trace (s : State) : (s.applyReset).trace = s.trace := rfl
@[simp] theorem State.applyReset_staged (s : State) : (s.applyReset).staged = s.staged := rfl

@[simp] theorem State.turnTaken_settings (s : State) : (s.turnTaken).settings = s.settings := rfl
@[simp] theorem State.turnTaken_frame (s : State) : (s.turnTaken).frame = s.frame := rfl
@[simp] theorem State.turnTaken_csum (s : State) : (s.turnTaken).csum = s.csum := rfl
@[simp] theorem State.turnTaken_data (s : State) : (s.turnTaken).data = s.data := rfl
@[simp] theorem State.turnTaken_schedR (s : State) : (s.turnTaken).schedR = s.schedR := rfl
@[simp] theorem State.turnTaken_frameV (s : State) : (s.turnTaken).frameV = s.frameV := rfl
@[simp] theorem State.turnTaken_dataV (s : State) : (s.turnTaken).dataV = s.dataV := rfl
@[simp] theorem State.turnTaken_schedV (s : State) : (s.turnTaken).schedV = s.schedV := rfl
@[simp] theorem State.turnTaken_emitDone (s : State) : (s.turnTaken).emitDone = s.emitDone := rfl
@[simp] theorem State.turnTaken_errSeen (s : State) : (s.turnTaken).errSeen = s.errSeen := rfl
@[simp] theorem State.turnTaken_err (s : State) : (s.turnTaken).err = s.err := rfl
@[simp] theorem State.turnTaken_emitPhase (s : State) : (s.turnTaken).emitPhase = s.emitPhase := rfl
@[simp] theorem State.turnTaken_emitIdx (s : State) : (s.turnTaken).emitIdx = s.emitIdx := rfl
@[simp] theorem State.turnTaken_emitResult (s : State) : (s.turnTaken).emitResult = s.emitResult := rfl
@[simp] theorem State.turnTaken_handles (s : State) : (s.turnTaken).handles = s.handles := rfl
@[simp] theorem State.turnTaken_cfg (s : State) : (s.turnTaken).cfg = s.cfg := rfl
@[simp] theorem State.turnTaken_port (s : State) : (s.turnTaken).port = s.port := rfl
@[simp] theorem State.turnTaken_turns (s : State) : (s.turnTaken).turns = s.turns.tail := rfl
@[simp] theorem State.turnTaken_trace (s : State) : (s.turnTaken).trace = s.trace := rfl
@[simp] theorem State.turnTaken_staged (s : State) : (s.turnTaken).staged = s.staged := rfl

@[simp] theorem handleStored_settings (h : Word) (s : State) : (handleStored h s).settings = s.settings := rfl
@[simp] theorem handleStored_frame (h : Word) (s : State) : (handleStored h s).frame = s.frame := rfl
@[simp] theorem handleStored_csum (h : Word) (s : State) : (handleStored h s).csum = s.csum := rfl
@[simp] theorem handleStored_data (h : Word) (s : State) : (handleStored h s).data = s.data := rfl
@[simp] theorem handleStored_schedR (h : Word) (s : State) : (handleStored h s).schedR = s.schedR := rfl
@[simp] theorem handleStored_frameV (h : Word) (s : State) : (handleStored h s).frameV = s.frameV := rfl
@[simp] theorem handleStored_dataV (h : Word) (s : State) : (handleStored h s).dataV = s.dataV := rfl
@[simp] theorem handleStored_schedV (h : Word) (s : State) : (handleStored h s).schedV = s.schedV := rfl
@[simp] theorem handleStored_emitDone (h : Word) (s : State) : (handleStored h s).emitDone = s.emitDone := rfl
@[simp] theorem handleStored_errSeen (h : Word) (s : State) : (handleStored h s).errSeen = s.errSeen := rfl
@[simp] theorem handleStored_err (h : Word) (s : State) : (handleStored h s).err = s.err := rfl
@[simp] theorem handleStored_emitPhase (h : Word) (s : State) : (handleStored h s).emitPhase = s.emitPhase := rfl
@[simp] theorem handleStored_emitIdx (h : Word) (s : State) : (handleStored h s).emitIdx = s.emitIdx + 1#9 := rfl
@[simp] theorem handleStored_emitResult (h : Word) (s : State) : (handleStored h s).emitResult = s.emitResult := rfl
@[simp] theorem handleStored_handles (h : Word) (s : State) : (handleStored h s).handles = s.handles.setIfInBounds s.emitIdx.toNat h := rfl
@[simp] theorem handleStored_cfg (h : Word) (s : State) : (handleStored h s).cfg = s.cfg := rfl
@[simp] theorem handleStored_port (h : Word) (s : State) : (handleStored h s).port = s.port := rfl
@[simp] theorem handleStored_turns (h : Word) (s : State) : (handleStored h s).turns = s.turns := rfl
@[simp] theorem handleStored_trace (h : Word) (s : State) : (handleStored h s).trace = s.trace := rfl
@[simp] theorem handleStored_staged (h : Word) (s : State) : (handleStored h s).staged = s.staged ++ [(h, s.payload s.emitIdx.toNat)] := rfl

@[simp] theorem transmitAnswered_settings (st : Word) (s : State) : (transmitAnswered st s).settings = s.settings := rfl
@[simp] theorem transmitAnswered_frame (st : Word) (s : State) : (transmitAnswered st s).frame = s.frame := rfl
@[simp] theorem transmitAnswered_csum (st : Word) (s : State) : (transmitAnswered st s).csum = s.csum := rfl
@[simp] theorem transmitAnswered_data (st : Word) (s : State) : (transmitAnswered st s).data = s.data := rfl
@[simp] theorem transmitAnswered_schedR (st : Word) (s : State) : (transmitAnswered st s).schedR = s.schedR := rfl
@[simp] theorem transmitAnswered_frameV (st : Word) (s : State) : (transmitAnswered st s).frameV = s.frameV := rfl
@[simp] theorem transmitAnswered_dataV (st : Word) (s : State) : (transmitAnswered st s).dataV = s.dataV := rfl
@[simp] theorem transmitAnswered_schedV (st : Word) (s : State) : (transmitAnswered st s).schedV = s.schedV := rfl
@[simp] theorem transmitAnswered_emitDone (st : Word) (s : State) : (transmitAnswered st s).emitDone = true := rfl
@[simp] theorem transmitAnswered_errSeen (st : Word) (s : State) : (transmitAnswered st s).errSeen = s.errSeen := rfl
@[simp] theorem transmitAnswered_err (st : Word) (s : State) : (transmitAnswered st s).err = .none := rfl
@[simp] theorem transmitAnswered_emitPhase (st : Word) (s : State) : (transmitAnswered st s).emitPhase = .idle := rfl
@[simp] theorem transmitAnswered_emitIdx (st : Word) (s : State) : (transmitAnswered st s).emitIdx = s.emitIdx := rfl
@[simp] theorem transmitAnswered_emitResult (st : Word) (s : State) : (transmitAnswered st s).emitResult = st := rfl
@[simp] theorem transmitAnswered_handles (st : Word) (s : State) : (transmitAnswered st s).handles = s.handles := rfl
@[simp] theorem transmitAnswered_cfg (st : Word) (s : State) : (transmitAnswered st s).cfg = s.cfg := rfl
@[simp] theorem transmitAnswered_port (st : Word) (s : State) : (transmitAnswered st s).port = s.port := rfl
@[simp] theorem transmitAnswered_turns (st : Word) (s : State) : (transmitAnswered st s).turns = s.turns := rfl
@[simp] theorem transmitAnswered_trace (st : Word) (s : State) : (transmitAnswered st s).trace = s.trace := rfl
@[simp] theorem transmitAnswered_staged (st : Word) (s : State) : (transmitAnswered st s).staged = s.staged := rfl

@[simp] theorem stageFailed_settings (h : Word) (s : State) : (stageFailed h s).settings = s.settings := rfl
@[simp] theorem stageFailed_frame (h : Word) (s : State) : (stageFailed h s).frame = s.frame := rfl
@[simp] theorem stageFailed_csum (h : Word) (s : State) : (stageFailed h s).csum = s.csum := rfl
@[simp] theorem stageFailed_data (h : Word) (s : State) : (stageFailed h s).data = s.data := rfl
@[simp] theorem stageFailed_schedR (h : Word) (s : State) : (stageFailed h s).schedR = s.schedR := rfl
@[simp] theorem stageFailed_frameV (h : Word) (s : State) : (stageFailed h s).frameV = s.frameV := rfl
@[simp] theorem stageFailed_dataV (h : Word) (s : State) : (stageFailed h s).dataV = s.dataV := rfl
@[simp] theorem stageFailed_schedV (h : Word) (s : State) : (stageFailed h s).schedV = s.schedV := rfl
@[simp] theorem stageFailed_emitDone (h : Word) (s : State) : (stageFailed h s).emitDone = s.emitDone := rfl
@[simp] theorem stageFailed_errSeen (h : Word) (s : State) : (stageFailed h s).errSeen = true := rfl
@[simp] theorem stageFailed_err (h : Word) (s : State) : (stageFailed h s).err = .stageFail := rfl
@[simp] theorem stageFailed_emitPhase (h : Word) (s : State) : (stageFailed h s).emitPhase = .idle := rfl
@[simp] theorem stageFailed_emitIdx (h : Word) (s : State) : (stageFailed h s).emitIdx = s.emitIdx := rfl
@[simp] theorem stageFailed_emitResult (h : Word) (s : State) : (stageFailed h s).emitResult = h := rfl
@[simp] theorem stageFailed_handles (h : Word) (s : State) : (stageFailed h s).handles = s.handles := rfl
@[simp] theorem stageFailed_cfg (h : Word) (s : State) : (stageFailed h s).cfg = s.cfg := rfl
@[simp] theorem stageFailed_port (h : Word) (s : State) : (stageFailed h s).port = s.port := rfl
@[simp] theorem stageFailed_turns (h : Word) (s : State) : (stageFailed h s).turns = s.turns := rfl
@[simp] theorem stageFailed_trace (h : Word) (s : State) : (stageFailed h s).trace = s.trace := rfl
@[simp] theorem stageFailed_staged (h : Word) (s : State) : (stageFailed h s).staged = s.staged := rfl

@[simp] theorem resetAnswered_settings (s : State) : (resetAnswered s).settings = s.settings := rfl
@[simp] theorem resetAnswered_frame (s : State) : (resetAnswered s).frame = s.frame := rfl
@[simp] theorem resetAnswered_csum (s : State) : (resetAnswered s).csum = s.csum := rfl
@[simp] theorem resetAnswered_data (s : State) : (resetAnswered s).data = s.data := rfl
@[simp] theorem resetAnswered_schedR (s : State) : (resetAnswered s).schedR = s.schedR := rfl
@[simp] theorem resetAnswered_frameV (s : State) : (resetAnswered s).frameV = s.frameV := rfl
@[simp] theorem resetAnswered_dataV (s : State) : (resetAnswered s).dataV = s.dataV := rfl
@[simp] theorem resetAnswered_schedV (s : State) : (resetAnswered s).schedV = s.schedV := rfl
@[simp] theorem resetAnswered_emitDone (s : State) : (resetAnswered s).emitDone = s.emitDone := rfl
@[simp] theorem resetAnswered_errSeen (s : State) : (resetAnswered s).errSeen = s.errSeen := rfl
@[simp] theorem resetAnswered_err (s : State) : (resetAnswered s).err = s.err := rfl
@[simp] theorem resetAnswered_emitPhase (s : State) : (resetAnswered s).emitPhase = .waitStage := rfl
@[simp] theorem resetAnswered_emitIdx (s : State) : (resetAnswered s).emitIdx = s.emitIdx := rfl
@[simp] theorem resetAnswered_emitResult (s : State) : (resetAnswered s).emitResult = s.emitResult := rfl
@[simp] theorem resetAnswered_handles (s : State) : (resetAnswered s).handles = s.handles := rfl
@[simp] theorem resetAnswered_cfg (s : State) : (resetAnswered s).cfg = s.cfg := rfl
@[simp] theorem resetAnswered_port (s : State) : (resetAnswered s).port = s.port := rfl
@[simp] theorem resetAnswered_turns (s : State) : (resetAnswered s).turns = s.turns := rfl
@[simp] theorem resetAnswered_trace (s : State) : (resetAnswered s).trace = s.trace ++ [.stage (s.payload 0)] := rfl
@[simp] theorem resetAnswered_staged (s : State) : (resetAnswered s).staged = s.staged := rfl

@[simp] theorem State.offer_settings (w : Word) (s : State) : (s.offer w).settings = s.settings := rfl
@[simp] theorem State.offer_frame (w : Word) (s : State) : (s.offer w).frame = s.frame := rfl
@[simp] theorem State.offer_csum (w : Word) (s : State) : (s.offer w).csum = s.csum := rfl
@[simp] theorem State.offer_data (w : Word) (s : State) : (s.offer w).data = s.data := rfl
@[simp] theorem State.offer_schedR (w : Word) (s : State) : (s.offer w).schedR = s.schedR := rfl
@[simp] theorem State.offer_frameV (w : Word) (s : State) : (s.offer w).frameV = s.frameV := rfl
@[simp] theorem State.offer_dataV (w : Word) (s : State) : (s.offer w).dataV = s.dataV := rfl
@[simp] theorem State.offer_schedV (w : Word) (s : State) : (s.offer w).schedV = s.schedV := rfl
@[simp] theorem State.offer_emitDone (w : Word) (s : State) : (s.offer w).emitDone = s.emitDone := rfl
@[simp] theorem State.offer_errSeen (w : Word) (s : State) : (s.offer w).errSeen = s.errSeen := rfl
@[simp] theorem State.offer_err (w : Word) (s : State) : (s.offer w).err = s.err := rfl
@[simp] theorem State.offer_emitPhase (w : Word) (s : State) : (s.offer w).emitPhase = .idle := rfl
@[simp] theorem State.offer_emitIdx (w : Word) (s : State) : (s.offer w).emitIdx = s.emitIdx := rfl
@[simp] theorem State.offer_emitResult (w : Word) (s : State) : (s.offer w).emitResult = s.emitResult := rfl
@[simp] theorem State.offer_handles (w : Word) (s : State) : (s.offer w).handles = s.handles := rfl
@[simp] theorem State.offer_cfg (w : Word) (s : State) : (s.offer w).cfg = s.cfg := rfl
@[simp] theorem State.offer_port (w : Word) (s : State) : (s.offer w).port = w :: s.port := rfl
@[simp] theorem State.offer_turns (w : Word) (s : State) : (s.offer w).turns = {} :: s.turns := rfl
@[simp] theorem State.offer_trace (w : Word) (s : State) : (s.offer w).trace = s.trace := rfl
@[simp] theorem State.offer_staged (w : Word) (s : State) : (s.offer w).staged = s.staged := rfl

@[simp] theorem State.inPhase_settings (p : Phase) (s : State) : (s.inPhase p).settings = s.settings := rfl
@[simp] theorem State.inPhase_frame (p : Phase) (s : State) : (s.inPhase p).frame = s.frame := rfl
@[simp] theorem State.inPhase_csum (p : Phase) (s : State) : (s.inPhase p).csum = s.csum := rfl
@[simp] theorem State.inPhase_data (p : Phase) (s : State) : (s.inPhase p).data = s.data := rfl
@[simp] theorem State.inPhase_schedR (p : Phase) (s : State) : (s.inPhase p).schedR = s.schedR := rfl
@[simp] theorem State.inPhase_frameV (p : Phase) (s : State) : (s.inPhase p).frameV = s.frameV := rfl
@[simp] theorem State.inPhase_dataV (p : Phase) (s : State) : (s.inPhase p).dataV = s.dataV := rfl
@[simp] theorem State.inPhase_schedV (p : Phase) (s : State) : (s.inPhase p).schedV = s.schedV := rfl
@[simp] theorem State.inPhase_emitDone (p : Phase) (s : State) : (s.inPhase p).emitDone = s.emitDone := rfl
@[simp] theorem State.inPhase_errSeen (p : Phase) (s : State) : (s.inPhase p).errSeen = s.errSeen := rfl
@[simp] theorem State.inPhase_err (p : Phase) (s : State) : (s.inPhase p).err = s.err := rfl
@[simp] theorem State.inPhase_emitPhase (p : Phase) (s : State) : (s.inPhase p).emitPhase = p := rfl
@[simp] theorem State.inPhase_emitIdx (p : Phase) (s : State) : (s.inPhase p).emitIdx = s.emitIdx := rfl
@[simp] theorem State.inPhase_emitResult (p : Phase) (s : State) : (s.inPhase p).emitResult = s.emitResult := rfl
@[simp] theorem State.inPhase_handles (p : Phase) (s : State) : (s.inPhase p).handles = s.handles := rfl
@[simp] theorem State.inPhase_cfg (p : Phase) (s : State) : (s.inPhase p).cfg = s.cfg := rfl
@[simp] theorem State.inPhase_port (p : Phase) (s : State) : (s.inPhase p).port = s.port := rfl
@[simp] theorem State.inPhase_turns (p : Phase) (s : State) : (s.inPhase p).turns = s.turns := rfl
@[simp] theorem State.inPhase_trace (p : Phase) (s : State) : (s.inPhase p).trace = s.trace := rfl
@[simp] theorem State.inPhase_staged (p : Phase) (s : State) : (s.inPhase p).staged = s.staged := rfl

@[simp] theorem State.withPort_settings (ws : List Word) (s : State) : (s.withPort ws).settings = s.settings := rfl
@[simp] theorem State.withPort_frame (ws : List Word) (s : State) : (s.withPort ws).frame = s.frame := rfl
@[simp] theorem State.withPort_csum (ws : List Word) (s : State) : (s.withPort ws).csum = s.csum := rfl
@[simp] theorem State.withPort_data (ws : List Word) (s : State) : (s.withPort ws).data = s.data := rfl
@[simp] theorem State.withPort_schedR (ws : List Word) (s : State) : (s.withPort ws).schedR = s.schedR := rfl
@[simp] theorem State.withPort_frameV (ws : List Word) (s : State) : (s.withPort ws).frameV = s.frameV := rfl
@[simp] theorem State.withPort_dataV (ws : List Word) (s : State) : (s.withPort ws).dataV = s.dataV := rfl
@[simp] theorem State.withPort_schedV (ws : List Word) (s : State) : (s.withPort ws).schedV = s.schedV := rfl
@[simp] theorem State.withPort_emitDone (ws : List Word) (s : State) : (s.withPort ws).emitDone = s.emitDone := rfl
@[simp] theorem State.withPort_errSeen (ws : List Word) (s : State) : (s.withPort ws).errSeen = s.errSeen := rfl
@[simp] theorem State.withPort_err (ws : List Word) (s : State) : (s.withPort ws).err = s.err := rfl
@[simp] theorem State.withPort_emitPhase (ws : List Word) (s : State) : (s.withPort ws).emitPhase = s.emitPhase := rfl
@[simp] theorem State.withPort_emitIdx (ws : List Word) (s : State) : (s.withPort ws).emitIdx = s.emitIdx := rfl
@[simp] theorem State.withPort_emitResult (ws : List Word) (s : State) : (s.withPort ws).emitResult = s.emitResult := rfl
@[simp] theorem State.withPort_handles (ws : List Word) (s : State) : (s.withPort ws).handles = s.handles := rfl
@[simp] theorem State.withPort_cfg (ws : List Word) (s : State) : (s.withPort ws).cfg = s.cfg := rfl
@[simp] theorem State.withPort_port (ws : List Word) (s : State) : (s.withPort ws).port = ws := rfl
@[simp] theorem State.withPort_turns (ws : List Word) (s : State) : (s.withPort ws).turns = s.turns := rfl
@[simp] theorem State.withPort_trace (ws : List Word) (s : State) : (s.withPort ws).trace = s.trace := rfl
@[simp] theorem State.withPort_staged (ws : List Word) (s : State) : (s.withPort ws).staged = s.staged := rfl

/-- What `payload` and the schedule's sizes depend on. -/
theorem State.payload_congr {s t : State} (hc : t.cfg = s.cfg) (hd : t.data = s.data) (hr : t.schedR = s.schedR) (k : Nat) :
    t.payload k = s.payload k := by
  simp only [State.payload, State.repeatCount, hc, hd, hr]

theorem State.segCount_congr {s t : State} (hr : t.schedR = s.schedR) : t.segCount = s.segCount := by
  simp only [State.segCount, hr]

end Sys2Proof.Machine
end

