-- ==== Sys2Proof/Laws/Step.lean ====
section
/-! SUPPORT. Everything a step, an answer and a command can do, said once; later proofs cite these and do not unfold. -/

namespace Sys2Proof.Machine

theorem busy_turnTaken (s : State) : s.turnTaken.busy = s.busy := rfl
theorem outstanding_turnTaken (s : State) : s.turnTaken.outstanding = s.outstanding := rfl
theorem turnNow_nil {s : State} (h : s.turns = []) : s.turnNow = {} := by simp [State.turnNow, h]
theorem turnNow_cons {s : State} {t : Turn} {ts : List Turn} (h : s.turns = t :: ts) : s.turnNow = t := by
  simp [State.turnNow, h]

theorem busy_eq_true {s : State} : s.busy = true ↔ s.emitPhase ≠ .idle := by simp [State.busy]
theorem busy_eq_false {s : State} : s.busy = false ↔ s.emitPhase = .idle := by simp [State.busy]

/-! The four kinds of step. -/

theorem step_reset {s : State} (h : s.turnNow.reset = true) : step s = .next s.turnTaken.applyReset := by
  simp [step, takeTurn, playTurn, h]

theorem step_busy {s : State} (hr : s.turnNow.reset = false) (hb : s.busy = true) :
    step s = .next (awaitAnswer s.turnNow.reply s.turnTaken) := by
  simp [step, takeTurn, playTurn, hr, busy_turnTaken, hb]

theorem step_idle {s : State} (hr : s.turnNow.reset = false) (hb : s.busy = false) (hp : s.port = []) :
    step s = .next s.turnTaken := by
  simp [step, takeTurn, playTurn, hr, busy_turnTaken, hb, servePort, hp]

theorem step_accept {s : State} {w : Word} {ws : List Word} (h : s.Accepts w ws) :
    step s = acceptWord w (s.turnTaken.withPort ws) := by
  obtain ⟨hb, hr, hp⟩ := h
  simp [step, takeTurn, playTurn, hr, busy_turnTaken, hb, servePort, hp]

/-- Every way a step answers a next state. -/
theorem step_cases {s t : State} (h : step s = .next t) :
    (s.turnNow.reset = true ∧ t = s.turnTaken.applyReset) ∨
    (s.turnNow.reset = false ∧ s.busy = true ∧ t = s.turnTaken) ∨
    (∃ a, s.Answered a ∧ t = takeAnswer a s.turnTaken) ∨
    (s.turnNow.reset = false ∧ s.busy = false ∧ s.port = [] ∧ t = s.turnTaken) ∨
    (∃ w ws, s.Accepts w ws ∧
      ((∃ e, decode w = .error e ∧ t = State.raise .illegal (s.turnTaken.withPort ws)) ∨
        ∃ i, decode w = .ok i ∧ exec i (s.turnTaken.withPort ws) = .next t)) := by
  by_cases hr : s.turnNow.reset = true
  · rw [step_reset hr] at h; injection h with h; exact .inl ⟨hr, h.symm⟩
  replace hr : s.turnNow.reset = false := by simpa using hr
  by_cases hb : s.busy = true
  · rw [step_busy hr hb] at h; injection h with h
    unfold awaitAnswer at h
    cases hrp : s.turnNow.reply with
    | none => rw [hrp] at h; exact .inr (.inl ⟨hr, hb, h.symm⟩)
    | some rp =>
      rw [hrp] at h
      simp only [takeReply] at h
      by_cases ho : s.turnTaken.outstanding = some rp.req
      · rw [if_pos ho] at h; exact .inr (.inr (.inl ⟨rp.answer, ⟨hb, hr, rp, hrp, ho, rfl⟩, h.symm⟩))
      · rw [if_neg ho] at h; exact .inr (.inl ⟨hr, hb, h.symm⟩)
  replace hb : s.busy = false := by simpa using hb
  cases hp : s.port with
  | nil => rw [step_idle hr hb hp] at h; injection h with h; exact .inr (.inr (.inr (.inl ⟨hr, hb, rfl, h.symm⟩)))
  | cons w ws =>
    rw [step_accept ⟨hb, hr, hp⟩] at h
    refine .inr (.inr (.inr (.inr ⟨w, ws, ⟨hb, hr, hp⟩, ?_⟩)))
    unfold acceptWord at h
    cases hd : decode w with
    | error e => rw [hd] at h; simp only [reject] at h; injection h with h; exact .inl ⟨e, rfl, h.symm⟩
    | ok i => rw [hd] at h; exact .inr ⟨i, rfl, h⟩

/-- Every way an answer changes the state (R172, R173, R175). -/
theorem takeAnswer_cases (a : Answer) (s : State) :
    takeAnswer a s = s ∨
    (s.emitPhase = .waitReset ∧ a = .ack ∧ takeAnswer a s = resetAnswered s) ∨
    (∃ h, s.emitPhase = .waitStage ∧ a = .handle h ∧ h.toInt < 0 ∧ takeAnswer a s = stageFailed h s) ∨
    (∃ h, s.emitPhase = .waitStage ∧ a = .handle h ∧ 0 ≤ h.toInt ∧ s.emitIdx.toNat + 1 < s.segCount ∧
      takeAnswer a s = State.request (.stage (s.payload (s.emitIdx.toNat + 1))) (handleStored h s)) ∨
    (∃ h, s.emitPhase = .waitStage ∧ a = .handle h ∧ 0 ≤ h.toInt ∧ s.segCount ≤ s.emitIdx.toNat + 1 ∧
      takeAnswer a s = State.request (.transmit ((handleStored h s).handles.toList.take s.segCount))
        (State.inPhase .waitTx (handleStored h s))) ∨
    (∃ st, s.emitPhase = .waitTx ∧ a = .status st ∧ takeAnswer a s = transmitAnswered st s) := by
  unfold takeAnswer
  split
  · next hp => exact .inr (.inl ⟨hp, rfl, rfl⟩)
  · next h hp =>
    refine .inr (.inr ?_)
    unfold stageAnswered
    split
    · next hn => exact .inl ⟨h, hp, rfl, hn, rfl⟩
    · next hn =>
      split
      · next hk => exact .inr (.inl ⟨h, hp, rfl, by omega, hk, rfl⟩)
      · next hk => exact .inr (.inr (.inl ⟨h, hp, rfl, by omega, by omega, rfl⟩))
  · next st hp => exact .inr (.inr (.inr (.inr (.inr ⟨st, hp, rfl, rfl⟩))))
  · exact .inl rfl

/-- Every way a command ends in a next state. -/
theorem exec_cases {i : Instr} {s t : State} (h : exec i s = .next t) :
    (∃ power mode fan dir temp, i = .encode power mode fan dir temp ∧
      t = { s with
        frame := encodedFrame s.cfg.params power mode fan dir temp
        csum := sym8 (checksum17 (packedFrame s.cfg.params power mode fan dir temp))
        settings := encode (.encode power mode fan dir temp) &&& settingsMask
        frameV := true, dataV := false, schedV := false, err := .none }) ∨
    (i = .checksum ∧ t = { s with frame := fillChecksum s.frame, csum := sym8 (checksum17 s.frame), err := .none }) ∨
    (i = .translate ∧
      t = { s with data := translateFrame s.cfg.params.timing s.frame, dataV := true, schedV := false, err := .none }) ∨
    (∃ rep, i = .sequence rep ∧ 0 ≤ repOf rep ∧ s.dataV = true ∧ t = { s with schedR := rep, schedV := true, err := .none }) ∨
    (i = .emit ∧ s.schedV = true ∧
      t = State.request .reset { s with emitDone := false, emitIdx := 0#9, emitPhase := .waitReset }) ∨
    (∃ c, (c ≠ .none ∧ s.Rejects i) ∧ t = s.raise c) := by
  cases i with
  | encode power mode fan dir temp =>
    simp only [exec, execEncode] at h; injection h with h
    exact .inl ⟨power, mode, fan, dir, temp, rfl, h.symm⟩
  | checksum => simp only [exec, execChecksum] at h; injection h with h; exact .inr (.inl ⟨rfl, h.symm⟩)
  | translate => simp only [exec, execTranslate] at h; injection h with h; exact .inr (.inr (.inl ⟨rfl, h.symm⟩))
  | sequence rep =>
    simp only [exec, execSequence, reject] at h
    split at h
    · next hn => injection h with h; exact .inr (.inr (.inr (.inr (.inr ⟨_, ⟨by decide, .inl hn⟩, h.symm⟩))))
    · split at h
      · next hd => injection h with h; exact .inr (.inr (.inr (.inr (.inr ⟨_, ⟨by decide, .inr hd⟩, h.symm⟩))))
      · next hn hd => injection h with h; exact .inr (.inr (.inr (.inl ⟨rep, rfl, by omega, by simpa using hd, h.symm⟩)))
  | emit =>
    simp only [exec, execEmit, reject] at h
    split at h
    · next hd => injection h with h; exact .inr (.inr (.inr (.inr (.inr ⟨_, ⟨by decide, hd⟩, h.symm⟩))))
    · next hd => injection h with h; exact .inr (.inr (.inr (.inr (.inl ⟨rfl, by simpa using hd, h.symm⟩))))

/-- No command stops the machine (R200): `exec` always answers a next state. -/
theorem exec_total (i : Instr) (s : State) : ∃ t, exec i s = .next t := by
  cases i with
  | encode => exact ⟨_, rfl⟩
  | checksum => exact ⟨_, rfl⟩
  | translate => exact ⟨_, rfl⟩
  | sequence rep =>
    simp only [exec, execSequence, reject]
    split
    · exact ⟨_, rfl⟩
    · split <;> exact ⟨_, rfl⟩
  | emit =>
    simp only [exec, execEmit, reject]
    split <;> exact ⟨_, rfl⟩

/-- Nor does a step. -/
theorem step_total (s : State) : ∃ t, step s = .next t := by
  cases hr : s.turnNow.reset with
  | true => exact ⟨_, step_reset hr⟩
  | false =>
    cases hb : s.busy with
    | true => exact ⟨_, step_busy hr hb⟩
    | false =>
      cases hp : s.port with
      | nil => exact ⟨_, step_idle hr hb hp⟩
      | cons w ws =>
        rw [step_accept ⟨hb, hr, hp⟩]
        unfold acceptWord
        cases decode w with
        | error e => exact ⟨_, rfl⟩
        | ok i => exact exec_total i _

end Sys2Proof.Machine
end

