-- ==== Sys2Proof/Laws/Invariant.lean ====
section
/-! SUPPORT. What each part of the invariant depends on: a step that leaves those fields alone keeps that part. -/

namespace Sys2Proof.Machine

/-- R39 depends on FRAME and CSUM. -/
theorem ChecksumHolds_congr {s t : State} (h : s.ChecksumHolds) (hf : t.frame = s.frame) (hc : t.csum = s.csum) :
    t.ChecksumHolds := by
  unfold State.ChecksumHolds at *
  rw [hf, hc]
  exact h

/-- R40 depends on DATA, FRAME, CFG, SCHED_R, the valid bits and the phase. -/
theorem ValidBitsHold_congr {s t : State} (h : s.ValidBitsHold) (hd : t.data = s.data) (hf : t.frame = s.frame)
    (hc : t.cfg = s.cfg) (hr : t.schedR = s.schedR) (hdv : t.dataV = s.dataV) (hsv : t.schedV = s.schedV)
    (hp : t.emitPhase = s.emitPhase) : t.ValidBitsHold := by
  unfold State.ValidBitsHold State.busy at *
  rw [hd, hf, hc, hr, hdv, hsv, hp]
  exact h

/-- R29 depends on SETTINGS, FRAME, FRAME_V and CFG. -/
theorem FrameFromSettings_congr {s t : State} (h : s.FrameFromSettings) (hs : t.settings = s.settings)
    (hf : t.frame = s.frame) (hv : t.frameV = s.frameV) (hc : t.cfg = s.cfg) : t.FrameFromSettings := by
  unfold State.FrameFromSettings at *
  rw [hs, hf, hv, hc]
  exact h

/-- An idle core's EMIT bookkeeping only has to keep the bound of EMIT_IDX. -/
theorem EmitHolds_idle {s t : State} (h : s.EmitHolds) (hi : t.emitIdx = s.emitIdx) (hp : t.emitPhase = .idle) :
    t.EmitHolds := by
  refine ⟨by rw [hi]; exact h.1, ?_⟩
  rw [hp]
  trivial

/-- A busy core is not idle. -/
theorem not_busy_of_idle {s : State} (h : s.emitPhase = .idle) : s.busy ≠ true := by
  simp [State.busy, h]

end Sys2Proof.Machine
end

