-- ==== Sys2Proof/Laws/PerInstr.lean ====
section
/-! SUPPORT. One law per constructor: an encoded command matches its own row of the opcode table and no other. -/

namespace Sys2Proof.Laws

/-- The rows of spec/opcode_table.json: mnemonic, mask, match. -/
def opcodeRows : List (String × Word × Word) :=
  [("ENCODE", 0xFF00800F#32, 0x00000001#32), ("CHECKSUM", 0xFFFFFFFF#32, 0x00000002#32),
    ("TRANSLATE", 0xFFFFFFFF#32, 0x00000003#32), ("SEQUENCE", 0xFF00FFFF#32, 0x00000004#32),
    ("EMIT", 0xFFFFFFFF#32, 0x00000005#32)]

/-- A command's mnemonic in the table (R76). -/
def mnemonicOf : Instr → String
  | .encode .. => "ENCODE"
  | .checksum => "CHECKSUM"
  | .translate => "TRANSLATE"
  | .sequence .. => "SEQUENCE"
  | .emit => "EMIT"

/-- The fixed bits of an ENCODE word. -/
theorem masked_encode (power : BitVec 2) (mode fan dir : BitVec 3) (temp : BitVec 8) :
    encode (.encode power mode fan dir temp) &&& 0xFF00800F#32 = 1#32 := by
  apply BitVec.eq_of_getLsbD_eq
  intro i hi
  rw [BitVec.getLsbD_and, encode_encode_getLsbD]
  interval_cases i <;> simp

/-- The fixed bits of a SEQUENCE word. -/
theorem masked_sequence (rep : BitVec 8) : encode (.sequence rep) &&& 0xFF00FFFF#32 = 4#32 := by
  apply BitVec.eq_of_getLsbD_eq
  intro i hi
  rw [BitVec.getLsbD_and, encode_sequence_getLsbD]
  interval_cases i <;> simp

/-- The opcode field of a word read from its masked value. -/
theorem masked_ne {w m a k b : Word} (h : w &&& m = a) (hm : m &&& 15#32 = 15#32) (hk : k &&& 15#32 = 15#32)
    (hab : a &&& 15#32 ≠ b &&& 15#32) : w &&& k ≠ b := by
  intro hb
  apply hab
  rw [← h, ← hb, BitVec.and_assoc, BitVec.and_assoc, hm, hk]

/-- The rows the word `w` matches. -/
def rowsOf (w : Word) : List String := (opcodeRows.filter (fun r => w &&& r.2.1 == r.2.2)).map (fun r => r.1)

namespace TableRow

/-- The command's word matches exactly its own row of the opcode table. -/
def Statement (i : Instr) : Prop := rowsOf (encode i) = [mnemonicOf i]

theorem encode (power : BitVec 2) (mode fan dir : BitVec 3) (temp : BitVec 8) :
    Statement (.encode power mode fan dir temp) := by
  have h := masked_encode power mode fan dir temp
  have ne : ∀ k b : Word, k &&& 15#32 = 15#32 → 1#32 &&& 15#32 ≠ b &&& 15#32 →
      Sys2Proof.encode (.encode power mode fan dir temp) &&& k ≠ b :=
    fun k b hk hb => masked_ne h (by decide) hk hb
  have n2 := ne 0xFFFFFFFF#32 2#32 (by decide) (by decide)
  have n3 := ne 0xFFFFFFFF#32 3#32 (by decide) (by decide)
  have n4 := ne 0xFF00FFFF#32 4#32 (by decide) (by decide)
  have n5 := ne 0xFFFFFFFF#32 5#32 (by decide) (by decide)
  unfold Statement rowsOf opcodeRows mnemonicOf
  generalize Sys2Proof.encode (.encode power mode fan dir temp) = w at *
  simp only [List.filter_cons, List.filter_nil, beq_iff_eq, h, n2, n3, n4, n5, if_true, if_false, List.map_cons, List.map_nil]

theorem checksum : Statement .checksum := by unfold Statement; decide

theorem translate : Statement .translate := by unfold Statement; decide

theorem sequence (rep : BitVec 8) : Statement (.sequence rep) := by
  have h := masked_sequence rep
  have ne : ∀ k b : Word, k &&& 15#32 = 15#32 → 4#32 &&& 15#32 ≠ b &&& 15#32 → Sys2Proof.encode (.sequence rep) &&& k ≠ b :=
    fun k b hk hb => masked_ne h (by decide) hk hb
  have n1 := ne 0xFF00800F#32 1#32 (by decide) (by decide)
  have n2 := ne 0xFFFFFFFF#32 2#32 (by decide) (by decide)
  have n3 := ne 0xFFFFFFFF#32 3#32 (by decide) (by decide)
  have n5 := ne 0xFFFFFFFF#32 5#32 (by decide) (by decide)
  unfold Statement rowsOf opcodeRows mnemonicOf
  generalize Sys2Proof.encode (.sequence rep) = w at *
  simp only [List.filter_cons, List.filter_nil, beq_iff_eq, h, n1, n2, n3, n5, if_true, if_false, List.map_cons, List.map_nil]

theorem emit : Statement .emit := by unfold Statement; decide

end TableRow

end Sys2Proof.Laws
end

