-- ==== Sys2Proof/Laws/RegisterSpace.lean ====
section
/-! SUPPORT. The bits of STATUS, and what a host read depends on. -/

namespace Sys2Proof.Machine

/-- Every bit of the STATUS word (R30). -/
theorem status_getLsbD (s : State) (k : Nat) : s.status.getLsbD k =
    if k = 0 then s.busy else if k = 1 then s.frameV else if k = 2 then s.dataV else if k = 3 then s.schedV
    else if k = 4 then s.emitDone else if k = 5 then s.errSeen else if k < 8 then (phaseNumber s.emitPhase).getLsbD (k - 6)
    else if k < 12 then (errNumber s.err).getLsbD (k - 8) else false := by
  by_cases hk : k < 12
  · simp only [State.status, BitVec.getLsbD_append, BitVec.getLsbD_ofBool]
    interval_cases k <;> rfl
  · simp only [State.status, BitVec.getLsbD_append]
    have h : ¬k < 1 ∧ ¬k - 1 < 1 ∧ ¬k - 1 - 1 < 1 ∧ ¬k - 1 - 1 - 1 < 1 ∧ ¬k - 1 - 1 - 1 - 1 < 1 ∧ ¬k - 1 - 1 - 1 - 1 - 1 < 1 ∧
        ¬k - 1 - 1 - 1 - 1 - 1 - 1 < 2 ∧ ¬k - 1 - 1 - 1 - 1 - 1 - 1 - 2 < 4 ∧ k ≠ 0 ∧ k ≠ 1 ∧ k ≠ 2 ∧ k ≠ 3 ∧ k ≠ 4 ∧ k ≠ 5 ∧ ¬k < 8 := by
      omega
    simp only [h, if_false, hk, BitVec.getLsbD_zero]

/-- A host read of a low address depends only on the register at it (R51). -/
theorem readLow_congr (n : Nat) {s t : State} (h0 : n = 0 → t.status = s.status) (h1 : n = 1 → t.csum = s.csum)
    (h2 : n = 2 → t.settings = s.settings) (h3 : n = 3 → t.schedR = s.schedR) (h4 : n = 4 → t.schedNseg = s.schedNseg)
    (h5 : n = 5 → t.schedLen = s.schedLen) (h6 : n = 6 → t.emitResult = s.emitResult) (h7 : n = 7 → t.emitIdx = s.emitIdx) :
    readLow n t = readLow n s := by
  unfold readLow
  split <;> simp_all

/-- What a host read of an address depends on (R51). -/
theorem hostRead_congr (a : Addr) {s t : State} (hlow : a.toNat < 0x010 → readLow a.toNat t = readLow a.toNat s)
    (hframe : 0x010 ≤ a.toNat → a.toNat < 0x022 → t.frame.getD (a.toNat - 0x010) 0#8 = s.frame.getD (a.toNat - 0x010) 0#8)
    (hcfg : t.cfg = s.cfg)
    (hdata : 0x100 ≤ a.toNat → a.toNat < 0x220 → t.data.getD (a.toNat - 0x100) 0#32 = s.data.getD (a.toNat - 0x100) 0#32)
    (hhandles : 0x400 ≤ a.toNat → a.toNat < 0x580 →
      t.handles.getD (a.toNat - 0x400) 0#32 = s.handles.getD (a.toNat - 0x400) 0#32) :
    hostRead a t = hostRead a s := by
  unfold hostRead
  simp only [hcfg]
  split_ifs with g1 g2 g3 g4 g5
  · exact hlow g1
  · rw [hframe (by omega) g2]
  · rfl
  · exact hdata (by omega) g4
  · exact hhandles g5.1 g5.2
  · rfl

end Sys2Proof.Machine
end

