-- ==== Sys2Proof/Laws/Run.lean ====
section
/-! SUPPORT. Runs of the machine, step by step. -/

namespace Sys2Proof.Machine

/-- One step taken off a run. -/
theorem run_succ (k : Nat) {s t : State} (h : step s = .next t) : Sys2Proof.core.run (k + 1) s = Sys2Proof.core.run k t := by
  have h' : Sys2Proof.core.step s = .next t := h
  simp only [Host.Core.run, h']

/-- The first step of a run that answers a next state. -/
theorem run_succ_next {k : Nat} {s u : State} (h : Sys2Proof.core.run (k + 1) s = .next u) :
    ∃ t : State, step s = .next t ∧ Sys2Proof.core.run k t = .next u := by
  cases hs : step s with
  | next t => rw [run_succ k hs] at h; exact ⟨t, rfl, h⟩
  | fault r => exact nomatch r
  | refused r =>
    have h' : Sys2Proof.core.step s = .refused r := hs
    simp only [Host.Core.run, h'] at h
    exact absurd h (by simp)

/-- A property every step keeps holds in every state a run reaches. -/
theorem run_keeps (P : State → Prop) (hP : ∀ s t, P s → step s = .next t → P t) :
    ∀ (n : Nat) (s t : State), P s → Sys2Proof.core.run n s = .next t → P t := by
  intro n
  induction n with
  | zero => intro s t hs h; simp only [Host.Core.run] at h; injection h with h; subst h; exact hs
  | succ k ih =>
    intro s t hs h
    obtain ⟨u, hu, hr⟩ := run_succ_next h
    exact ih u t (hP s u hs hu) hr

theorem Reaches.keeps {P : State → Prop} (hP : ∀ s t, P s → step s = .next t → P t) {s t : State} (h : Reaches s t)
    (hs : P s) : P t :=
  let ⟨n, hn⟩ := h
  run_keeps P hP n s t hs hn

end Sys2Proof.Machine
end

