-- ==== Sys2Proof/Tests/Slice0.lean ====
section
/-! SUPPORT. The model's own tests: expected values from 95_test_vectors.md and the rules named, worked out by hand;
then, for every statement with hypotheses, a witness that meets them. -/

namespace Sys2Proof.Tests

open Sys2Proof Sys2Proof.Machine

/-! Configurations EX and EX1 (92_eei_decisions.md D37). -/

/-- CFG.FIELD_MAP of EX. -/
def exFields : FieldMap := ⟨5, 3, 0, 1, 0, 3⟩

/-- CFG.TIMING of EX. -/
def exTiming : Timing := ⟨3400#32, 1700#32, 400#32, 500#32, 1300#32, 400#32, 17000#32⟩

/-- EX: every template symbol 0. -/
def exParams : Params := ⟨Vector.replicate 18 0#8, exFields, exTiming, none⟩

def exCfg : Cfg := { params := exParams, wf := by decide }

/-- EX1: every template symbol 1. -/
def ex1Cfg : Cfg := { params := { exParams with template := Vector.replicate 18 0xFF#8 }, wf := by decide }

/-- EX right after reset. -/
def ex : State := State.afterReset exCfg

/-- The next state of an outcome, `s` where there is none. -/
def nextOf (s : State) : Host.Outcome State Fault Refusal → State
  | .next t => t
  | .fault _ => s
  | .refused _ => s

/-- The state after a command. -/
def after (i : Instr) (s : State) : State := nextOf s (exec i s)

/-- The state after a step. -/
def stepped (s : State) : State := nextOf s (step s)

/-- ENC-1: on, heat, 24, low, auto. -/
def enc1 : Instr := .encode 1#2 0#3 1#3 0#3 24#8

/-! Decoding: words written out from R72, R73, R74 and R81. -/

/-- ENC-1 bit by bit: RSV 00000000, TEMP 00011000, RSV 0, DIR 000, FAN 001, MODE 000, POWER 01, OP 0001. -/
theorem test_decode_encode : decode 0b00000000000110000000001000010001#32 = .ok enc1 := by decide

/-- ENC-4, every field different: TEMP 00011111, DIR 110, FAN 011, MODE 001, POWER 01. -/
theorem test_decode_encode_fields :
    decode 0b00000000000111110110011001010001#32 = .ok (.encode 1#2 1#3 3#3 6#3 31#8) := by decide

theorem test_decode_checksum : decode 0b00000000000000000000000000000010#32 = .ok .checksum := by decide

theorem test_decode_translate : decode 0b00000000000000000000000000000011#32 = .ok .translate := by decide

/-- SEQUENCE -1 (R81). -/
theorem test_decode_sequence : decode 0b00000000111111110000000000000100#32 = .ok (.sequence 255#8) := by decide

theorem test_decode_emit : decode 0b00000000000000000000000000000101#32 = .ok .emit := by decide

/-- ENC-X1 to ENC-X3, CK-C4, TR-7, SQ-10, SQ-11, EM-8: reserved bits. -/
theorem test_decode_reserved_bits :
    [0x00188211#32, 0x01180211#32, 0x80000001#32].map decode = List.replicate 3 (.error (.reservedBits 1#4)) ∧
      decode 0x12#32 = .error (.reservedBits 2#4) ∧ decode 0x13#32 = .error (.reservedBits 3#4) ∧
      [0x01010004#32, 0x00010014#32].map decode = List.replicate 2 (.error (.reservedBits 4#4)) ∧
      decode 0x15#32 = .error (.reservedBits 5#4) := by decide

/-- Opcodes 0x0 and 0x6 to 0xF (R76). -/
theorem test_decode_illegal_opcodes :
    decode 0#32 = .error (.illegalOpcode 0#4) ∧
      (List.range 10).all (fun k => decide (decode (BitVec.ofNat 32 (6 + k)) = .error (.illegalOpcode (BitVec.ofNat 4 (6 + k))))) = true := by
  decide

/-- A table row's bits above `nbits` are 0, and a longer row is no command. -/
theorem test_decodeTableWord :
    decodeTableWord 32 0x00180211 = some enc1 ∧ decodeTableWord 8 0x102 = some .checksum ∧
      decodeTableWord 40 0x100000002 = none ∧ decodeTableWord 32 0 = none := by decide

/-! WellFormed smoke tests: an ill-formed term for each check, which the check refuses. -/

def goodSettings : AsmSettings := ⟨.name .on, .name .heat, 24, .name .low, .name .auto⟩

theorem test_wf_instr : Instr.wf enc1 = true ∧ AsmLine.wf (.encode goodSettings) = true := by decide

theorem test_refused_powerRange : AsmLine.failed (.encode { goodSettings with power := .code 4 }) = [.powerRange] := by decide

theorem test_refused_modeRange : AsmLine.failed (.encode { goodSettings with mode := .code 8 }) = [.modeRange] := by decide

theorem test_refused_tempRange :
    AsmLine.failed (.encode { goodSettings with temp := 128 }) = [.tempRange] ∧
      AsmLine.failed (.encode { goodSettings with temp := -129 }) = [.tempRange] := by decide

theorem test_refused_fanRange : AsmLine.failed (.encode { goodSettings with fan := .code 8 }) = [.fanRange] := by decide

theorem test_refused_dirRange : AsmLine.failed (.send { goodSettings with dir := .code 8 } 0) = [.dirRange] := by decide

theorem test_refused_repRange :
    AsmLine.failed (.sequence 128) = [.repRange] ∧ AsmLine.failed (.resend (-129)) = [.repRange] := by decide

theorem test_refused_wordRange : AsmLine.failed (.word 0x100000000) = [.wordRange] := by decide

theorem test_cfg_ex_passes : exParams.firstFailed = none ∧ exParams.wf = true := by decide

theorem test_refused_fmFits : Params.firstFailed { exParams with fieldMap := { exFields with dirOff := 6 } } = some .fmFits := by decide

theorem test_refused_fmDisjoint9 :
    Params.firstFailed { exParams with fieldMap := { exFields with dirOff := 1 } } = some .fmDisjoint9 := by decide

theorem test_refused_tmOneGtZero :
    Params.firstFailed { exParams with timing := { exTiming with oneOff := 500#32 } } = some .tmOneGtZero := by decide

theorem test_refused_tmZeroGtSep :
    Params.firstFailed { exParams with timing := { exTiming with zeroOff := 400#32 } } = some .tmZeroGtSep := by decide

/-! The commands, in EX. -/

/-- ENC-1 (R114): num of bytes 5 to 9 and 17; SETTINGS = 0x00180210 (RS-3). -/
theorem test_encode_enc1 :
    ((after enc1 ex).frame.toList.drop 5).take 5 = [0x20#8, 0x08#8, 0x01#8, 0x00#8, 0x01#8] ∧
      (after enc1 ex).frame[17] = 0x2A#8 ∧ (after enc1 ex).settings = 0x00180210#32 := by decide

/-- ENC-8 in EX1: off, heat, 16, auto, auto; the all-ones template, checksum 0x6F. -/
theorem test_encode_enc8 :
    ((encodedFrame ex1Cfg.params 0#2 0#3 0#3 0#3 16#8).toList.drop 5).take 5 = [0xDF#8, 0xEF#8, 0xF0#8, 0xF9#8, 0xC4#8] ∧
      (encodedFrame ex1Cfg.params 0#2 0#3 0#3 0#3 16#8)[17] = 0x6F#8 := by decide

/-- CK-2 and CK-3. -/
theorem test_checksum_function :
    sum17 (Vector.replicate 18 0xFF#8) = 4335 ∧ checksum17 (Vector.replicate 18 0xFF#8) = 0xEF ∧
      checksum17 (Vector.ofFn fun b : Fin 18 => BitVec.ofNat 8 b.val) = 0x88 := by decide

/-- CHECKSUM writes byte 17 and CSUM, and clears ERR but not ERR_SEEN (CK-C5). -/
theorem test_checksum_command :
    let t := after .checksum { ex with frame := Vector.replicate 18 0xFF#8, err := .illegal, errSeen := true }
    t.frame[17] = 0xEF#8 ∧ t.csum = 0xEF#8 ∧ t.err = .none ∧ t.errSeen = true := by decide

/-- Bit 45 of ENC-1's Frame (byte 5, symbol 5) is 1 and bit 44 is 0: entries 88 to 91 of TR-2. -/
theorem test_translate_entries :
    let t := after .translate { ex with frame := (Vector.replicate 18 0#8).set 5 0x20#8, schedV := true }
    (t.data.toList.drop 88).take 4 = [400#32, 500#32, 400#32, 1300#32] ∧ t.dataV = true ∧ t.schedV = false := by decide +kernel

/-- SQ-5: the largest repeat count, NSEG and LEN. -/
theorem test_sequence_largest :
    let t := after (.sequence 127#8) { ex with dataV := true }
    hostRead 3#12 t = 0x7F#32 ∧ hostRead 4#12 t = 384#32 ∧ hostRead 5#12 t = 37376#32 := by decide

/-- SQ-9: NEG_REPEAT, not NODATA; and SQ-8. -/
theorem test_sequence_rejections :
    (after (.sequence 255#8) ex).err = .negRepeat ∧ (after (.sequence 5#8) ex).err = .nodata ∧
      hostRead 0#12 (after (.sequence 5#8) ex) = 0x220#32 := by decide

/-- SQ-2 and SQ-3: the segment orders. -/
theorem test_segments :
    segments 1 = [.header, .dataSeg, .spacer, .header, .dataSeg, .trailer] ∧
      segments 2 = [.header, .dataSeg, .spacer, .header, .dataSeg, .spacer, .header, .dataSeg, .trailer] := by decide

/-- EMIT's accepting step (R170): the request, the phase, STATUS = BUSY, DATA_V, SCHED_V, WAIT_RESET. -/
theorem test_emit_accepted :
    let t := after .emit { ex with dataV := true, schedV := true }
    t.trace = [.reset] ∧ t.emitPhase = .waitReset ∧ hostRead 0#12 t = 0x4D#32 := by decide

/-- P3, command 1: EMIT right after reset is NOSCHED, STATUS = 0x00000320, no request. -/
theorem test_emit_rejected : hostRead 0#12 (after .emit ex) = 0x320#32 ∧ (after .emit ex).trace = [] := by decide

/-- EX in the middle of an EMIT of repeat count `r`, `stage` of instance `k` outstanding with the answer `h` arriving
next: the k-th request after `reset`, so the request number is k + 1. -/
def staging (r k : Nat) (h : Word) : State :=
  { ex with
    dataV := true, schedV := true, schedR := BitVec.ofNat 8 r, emitPhase := .waitStage, emitIdx := BitVec.ofNat 9 k
    trace := List.replicate (k + 2) .reset, turns := [{ reply := some ⟨k + 1, .handle h⟩ }] }

/-- EM-6: 0x7FFFFFFF is a handle; the next instance of SCHED_R = 0 after the Data segment is the Trailer. -/
theorem test_stage_answered :
    let t := stepped (staging 0 1 0x7FFFFFFF#32)
    t.handles[1] = 0x7FFFFFFF#32 ∧ t.emitIdx = 2#9 ∧ t.trace.drop 3 = [.stage [400#32, 17000#32]] := by decide +kernel

/-- EM-3: a failure at the last instance of SCHED_R = 1. -/
theorem test_stage_failed :
    let t := stepped (staging 1 5 0xFFFFFFF7#32)
    t.err = .stageFail ∧ t.errSeen = true ∧ t.emitIdx = 5#9 ∧ t.emitResult = 0xFFFFFFF7#32 ∧ t.emitPhase = .idle ∧
      t.trace.length = 7 := by decide +kernel

/-- A frame of settings text assembled: P1 and the pseudo-instruction SEND (R80). -/
theorem test_assembler_text :
    parseLine "  SEND power=on, mode=heat, temp=24, fan=low, dir=auto, 0 ; P1".toList = .line (.send goodSettings 0) ∧
      parseLine "SEQUENCE -1".toList = .line (.sequence (-1)) ∧ parseLine ".word 0x00188211".toList = .line (.word 0x00188211) ∧
      parseLine "; only a comment".toList = .blank ∧ parseLine "SEQUENCE".toList = .malformed := by decide

/-- Every name of R79, read from text, in the order of the codes of R104, R105, R108 and R109. -/
theorem test_assembler_names :
    ["ENCODE power=off, mode=heat, temp=16, fan=auto, dir=auto",
      "ENCODE power=on, mode=dry, temp=16, fan=low, dir=lowest",
      "ENCODE power=off, mode=cold, temp=16, fan=middle, dir=low",
      "ENCODE power=on, mode=auto, temp=16, fan=high, dir=middle"].map (fun t => parseLine t.toList) =
    [(PowerName.off, ModeName.heat, FanName.auto, DirName.auto),
      (PowerName.on, ModeName.dry, FanName.low, DirName.lowest),
      (PowerName.off, ModeName.cold, FanName.middle, DirName.low),
      (PowerName.on, ModeName.auto, FanName.high, DirName.middle)].map (fun p =>
      .line (.encode ⟨.name p.1, .name p.2.1, 16, .name p.2.2.1, .name p.2.2.2⟩)) := by decide

/-- The other three directions. -/
theorem test_assembler_names_of_directions :
    ["ENCODE power=off, mode=heat, temp=16, fan=auto, dir=high",
      "ENCODE power=on, mode=dry, temp=16, fan=low, dir=highest",
      "ENCODE power=off, mode=cold, temp=16, fan=middle, dir=loop"].map (fun t => parseLine t.toList) =
    [(PowerName.off, ModeName.heat, FanName.auto, DirName.high),
      (PowerName.on, ModeName.dry, FanName.low, DirName.highest),
      (PowerName.off, ModeName.cold, FanName.middle, DirName.loop)].map (fun p =>
      .line (.encode ⟨.name p.1, .name p.2.1, 16, .name p.2.2.1, .name p.2.2.2⟩)) := by decide

theorem test_assembler_words :
    assembleLine (.send goodSettings 0) = .ok [0x00180211#32, 3#32, 4#32, 5#32] ∧
      assembleLine (.sequence (-1)) = .ok [0x00FF0004#32] := by decide

/-- RS-1: the timing table, and nothing else, reads non-zero after reset. -/
theorem test_reset_reads :
    [0x030#12, 0x031#12, 0x032#12, 0x033#12, 0x034#12, 0x035#12, 0x036#12].map (fun a => hostRead a ex) =
        [3400#32, 1700#32, 400#32, 500#32, 1300#32, 400#32, 17000#32] ∧
      [0x000#12, 0x001#12, 0x002#12, 0x021#12, 0x100#12, 0x400#12].map (fun a => hostRead a ex) = List.replicate 6 0#32 := by
  decide +kernel

/-- A step runs the offered word (R78): the first step after reset. -/
theorem test_withFetchWord :
    (stepped (ex.withFetchWord 32 0x00180211)).csum = 0x2A#8 ∧ (stepped (ex.withFetchWord 32 0)).err = .illegal := by decide +kernel

/-! Witnesses: states and operands that meet the hypotheses of the statements, clause by clause. -/

/-- EX with the word `w` offered and nothing else to arrive. -/
def offering (w : Word) : State := { ex with port := [w] }

/-- EX waiting for the answer to `reset`, request number 0; `ts` is what the environment does next. -/
def waiting (ts : List Turn) : State :=
  { ex with dataV := true, schedV := true, emitPhase := .waitReset, trace := [.reset], turns := ts }

/-- EX waiting for the answer to `transmit`, request number 4. -/
def sending (st : Word) : State :=
  { ex with
    dataV := true, schedV := true, emitPhase := .waitTx, emitIdx := 3#9
    trace := List.replicate 5 .reset, turns := [{ reply := some ⟨4, .status st⟩ }] }

theorem accepts_offering (w : Word) : (offering w).Accepts w [] := ⟨rfl, rfl, rfl⟩

theorem answered_waiting : (waiting [{ reply := some ⟨0, .ack⟩ }]).Answered .ack := ⟨rfl, rfl, _, rfl, rfl, rfl⟩

theorem answered_staging (r k : Nat) (h : Word) : (staging r k h).Answered (.handle h) :=
  ⟨rfl, rfl, _, rfl, by simp [State.outstanding, staging, State.busy], rfl⟩

theorem answered_sending (st : Word) : (sending st).Answered (.status st) := ⟨rfl, rfl, _, rfl, rfl, rfl⟩

theorem witness_DecodeOfEncodeIsIdentity : Instr.wf enc1 = true := by decide

theorem witness_EncodeOfDecodeIsIdentity : decode 0x00180211#32 = .ok enc1 := by decide

theorem witness_DecodedOperandsAreTheWordsFields :
    decode 0x00FF19F1#32 = .ok (.encode 3#2 7#3 4#3 1#3 255#8) ∧ decode 0x00800004#32 = .ok (.sequence 128#8) := by decide

theorem witness_StepRunsTheDecodedCommand :
    (offering 2#32).Accepts 2#32 [] ∧ decode 2#32 = .ok .checksum ∧ decodeTableWord 32 0x00180211 = some enc1 :=
  ⟨accepts_offering _, by decide, by decide⟩

/-- One word for each way to be illegal: opcode 0, an opcode above 5, a reserved bit of each format. -/
theorem witness_IllegalWordIsRejectedPrecisely :
    (offering 0x00188211#32).Accepts 0x00188211#32 [] ∧ IllegalWord 0#32 ∧ IllegalWord 6#32 ∧ IllegalWord 0x00188211#32 ∧
      IllegalWord 0x01180211#32 ∧ IllegalWord 0x01010004#32 ∧ IllegalWord 0x00010014#32 ∧ IllegalWord 0x12#32 :=
  ⟨accepts_offering _, by unfold IllegalWord; decide, by unfold IllegalWord; decide, by unfold IllegalWord; decide,
    by unfold IllegalWord; decide, by unfold IllegalWord; decide, by unfold IllegalWord; decide, by unfold IllegalWord; decide⟩

theorem witness_CommandsAreAcceptedOnceAndOnlyWhenReady :
    (waiting []).busy = true ∧ (offering 2#32).cmdReady = true ∧ (offering 2#32).turnNow.reset = false ∧
      (let s : State := { offering 2#32 with turns := [{ reset := true }] }
       s.cmdReady = true ∧ s.turnNow.reset = true ∧ s.port = [2#32]) := by decide

theorem witness_IdleMachineKeepsAllItsState : ex.busy = false ∧ ex.port = [] ∧ ex.turnNow.reset = false := by decide

theorem witness_ResetPutsEveryRegisterToItsResetValue : (waiting [{ reset := true }]).turnNow.reset = true := by decide

/-- Addresses on both sides of the timing table's ends. -/
theorem witness_ResetStateReadsAsTheSpecSays :
    [0x000#12, 0x02F#12, 0x037#12, 0xFFF#12].all (fun a => decide (¬(0x030 ≤ a.toNat ∧ a.toNat ≤ 0x036))) = true := by decide

/-- A reset during an EMIT, then the late answer to its `reset` request. -/
theorem witness_ResetEndsAnEmitAndItsLateAnswersAreIgnored :
    let s := waiting [{ reset := true }, { reply := some ⟨0, .ack⟩ }]
    s.turnNow.reset = true ∧ ∃ u : State, Sys2Proof.core.run 1 s = .next u ∧ 0 < s.trace.length ∧
      u.turnNow.reset = false ∧ u.turnNow.reply = some ⟨0, .ack⟩ :=
  ⟨rfl, _, rfl, by decide, rfl, rfl⟩

theorem witness_AnswerToNoOutstandingRequestIsIgnored :
    let s := waiting [{ reply := some ⟨7, .ack⟩ }]
    s.turnNow.reset = false ∧ s.turnNow.reply = some ⟨7, .ack⟩ ∧ s.outstanding ≠ some 7 := by decide

/-- An answer to the outstanding `reset` that carries a handle. -/
theorem witness_AnswerToNoOutstandingRequestIsIgnored_kind :
    let s := waiting [{ reply := some ⟨0, .handle 5#32⟩ }]
    s.turnNow.reset = false ∧ s.turnNow.reply = some ⟨0, .handle 5#32⟩ ∧ s.outstanding = some 0 ∧
      (s.emitPhase = .waitReset → Answer.handle 5#32 ≠ .ack) ∧ s.emitPhase ≠ .waitStage ∧ s.emitPhase ≠ .waitTx := by decide

theorem witness_SilentEmitterHangsUntilReset :
    (waiting [{}, {}]).busy = true ∧ (∀ t ∈ (waiting [{}, {}]).turns, t.reset = false ∧ t.reply = none) ∧
      (waiting [{ reset := true }]).turnNow.reset = true := by decide

/-- Both ends of the temperature range and the values just outside it. -/
theorem witness_EncodePlacesTemperature :
    (16 ≤ (16#8).toInt ∧ (31#8).toInt ≤ 31) ∧ ¬(16 ≤ (15#8).toInt) ∧ ¬((32#8).toInt ≤ 31) ∧ ¬(16 ≤ (255#8).toInt) := by decide

/-- A position in no field, in a fixed byte and in byte 9 between FAN_F and DIR_F; the byte and symbol bounds. -/
theorem witness_EncodeKeepsTheTemplateOutsideTheFields :
    (∀ f : Field, ¬((byteOf f).val = 16 ∧ offOf exFields f ≤ 7 ∧ 7 < offOf exFields f + widthOf f)) ∧
      (∀ f : Field, ¬((byteOf f).val = 9 ∧ offOf exFields f ≤ 2 ∧ 2 < offOf exFields f + widthOf f)) :=
  ⟨by intro f; cases f <;> decide, by intro f; cases f <;> decide⟩

/-- An address at each edge of what ENCODE writes. -/
theorem witness_EncodeLeavesOtherHostWordsAlone :
    [0x003#12, 0x006#12, 0x00F#12, 0x022#12, 0xFFF#12].all (fun a => decide (a.toNat ≠ 0 ∧ a.toNat ≠ 1 ∧ a.toNat ≠ 2 ∧ a.toNat ≠ 4 ∧
      a.toNat ≠ 5 ∧ ¬(0x010 ≤ a.toNat ∧ a.toNat ≤ 0x021))) = true := by decide

theorem witness_EncodeDependsOnlyOnTheWordAndCfg : ex.cfg = (waiting []).cfg ∧ ex.schedV ≠ (waiting []).schedV := by decide

/-- For each operand, two different values of one class. -/
theorem witness_SettingsTheReceiverCannotTellApart :
    ((0#2).toNat ≠ 1 ∧ (3#2).toNat ≠ 1) ∧ (2 ≤ (2#3).toNat ∧ 2 ≤ (7#3).toNat) ∧
      (((0#3).toNat = 0 ∨ 4 ≤ (0#3).toNat) ∧ ((4#3).toNat = 0 ∨ 4 ≤ (4#3).toNat)) ∧
      (((0#3).toNat = 0 ∨ (0#3).toNat = 7) ∧ ((7#3).toNat = 0 ∨ (7#3).toNat = 7)) ∧
      (((22#8).toInt = 22 ∨ (22#8).toInt < 16 ∨ 31 < (22#8).toInt) ∧
        ((32#8).toInt = 22 ∨ (32#8).toInt < 16 ∨ 31 < (32#8).toInt)) := by decide

theorem witness_ChecksumLeavesOtherHostWordsAlone :
    [0x002#12, 0x020#12, 0x022#12].all (fun a => decide (a.toNat ≠ 0 ∧ a.toNat ≠ 1 ∧ a.toNat ≠ 0x021)) = true := by decide

theorem witness_ChecksumChangesNoFrameWhoseChecksumHolds :
    (after enc1 ex).ChecksumHolds ∧ Reaches { State.afterReset exCfg with port := [], turns := [] } ex :=
  ⟨⟨by decide, by decide⟩, 0, rfl⟩

theorem witness_NumericValueTakesTheFirstSymbolAsLeastSignificant : 255 < 256 ∧ 7 < 8 ∧ num (sym8 255) = 255 := by decide

/-- The last bit of the Frame: entries 286 and 287. -/
theorem witness_TranslateBuildsTheDataSegment : 17 < 18 ∧ 7 < 8 ∧ 2 * (8 * 17 + 7) + 1 = 287 := by decide

theorem witness_TranslateLeavesOtherHostWordsAlone :
    [0x006#12, 0x0FF#12, 0x220#12].all (fun a => decide (a.toNat ≠ 0 ∧ a.toNat ≠ 4 ∧ a.toNat ≠ 5 ∧ ¬(0x100 ≤ a.toNat ∧ a.toNat < 0x220))) = true := by decide

theorem witness_DataSegmentDeterminesTheFrame :
    translateFrame exTiming ex.frame = translateFrame exTiming ex.frame := rfl

/-- ENC-13's Frame has 2 ones: byte 6 symbol 3 and byte 17 symbol 3. -/
theorem witness_DataSegmentDurationSum :
    2 = ((List.range 144).filter (fun i =>
      symbol ((encodedFrame exParams 0#2 0#3 0#3 0#3 16#8).getD (i / 8) 0#8) (i % 8))).length := by decide +kernel

/-- Both ends of the operand's range. -/
theorem witness_SequenceFixesTheRepeatCount :
    0 ≤ (0#8).toInt ∧ 0 ≤ (127#8).toInt ∧ (waiting []).dataV = true := by decide

theorem witness_SequenceRejectsInFixedPriority :
    (255#8).toInt < 0 ∧ (128#8).toInt < 0 ∧ 0 ≤ (0#8).toInt ∧ ex.dataV = false := by decide

theorem witness_RejectionWritesOnlyErrAndErrSeen :
    exec (.sequence 255#8) ex = .next (ex.raise .negRepeat) ∧ (ex.raise .negRepeat).err ≠ .none ∧
      exec .emit ex = .next (ex.raise .nosched) ∧ ex.schedV = false :=
  ⟨rfl, by decide, rfl, rfl⟩

/-- Each arm of the closed form, at its boundaries. -/
theorem witness_SegmentsHaveTheClosedForm :
    (0 < 3 * 0 + 3 ∧ 2 = 3 * 0 + 2) ∧ (3 < 3 * 1 + 3 ∧ 3 % 3 = 0) ∧ (4 < 3 * 1 + 3 ∧ 4 % 3 = 1) ∧ (2 < 3 * 1 + 3 ∧ 2 % 3 = 2 ∧ 2 ≠ 3 * 1 + 2) := by
  decide

theorem witness_ScheduleHasTheStatedSizes : 0 ≤ 127 ∧ 127 ≤ 127 ∧ (segments 0).length = 3 := by decide

theorem witness_EmitStartsTheTransaction : (staging 0 0 0#32).schedV = true := by decide

theorem witness_EmitWithoutScheduleIsRejected : ex.schedV = false := by decide

theorem witness_ResetAnswerStagesTheFirstHeader :
    (waiting [{ reply := some ⟨0, .ack⟩ }]).emitPhase = .waitReset ∧
      (waiting [{ reply := some ⟨0, .ack⟩ }]).Answered .ack :=
  ⟨rfl, answered_waiting⟩

/-- The two failures of R184 (e): -1 and -2^31. -/
theorem witness_StageFailureEndsTheEmit :
    (staging 1 5 0xFFFFFFFF#32).emitPhase = .waitStage ∧ (staging 1 5 0xFFFFFFFF#32).Answered (.handle 0xFFFFFFFF#32) ∧
      (0xFFFFFFFF#32).toInt < 0 ∧ (0x80000000#32).toInt < 0 :=
  ⟨rfl, answered_staging _ _ _, by decide, by decide⟩

/-- A first instance, which is followed by another, and the last of the largest schedule, which is not; the two ends of
the handles' range. -/
theorem witness_HandleAnswerStoresItAndGoesOn :
    (∀ p ∈ [(0, 0), (127, 383)], 0 ≤ (staging p.1 p.2 0#32).schedR.toInt ∧ (staging p.1 p.2 0#32).emitIdx.toNat = p.2 ∧
      p.2 < 3 * (staging p.1 p.2 0#32).schedR.toInt.toNat + 3) ∧
      (staging 127 383 0#32).emitPhase = .waitStage ∧ (staging 127 383 0#32).Answered (.handle 0#32) ∧
      0 ≤ (0#32).toInt ∧ 0 ≤ (0x7FFFFFFF#32).toInt ∧ 0 + 1 < 3 * 0 + 3 ∧ 383 + 1 = 3 * 127 + 3 :=
  ⟨by decide, rfl, answered_staging _ _ _, by decide, by decide, by decide, by decide⟩

theorem witness_TransmitStatusIsStoredUninterpreted :
    (sending 0xFFFFFFFF#32).emitPhase = .waitTx ∧ (sending 0xFFFFFFFF#32).Answered (.status 0xFFFFFFFF#32) :=
  ⟨rfl, answered_sending _⟩

/-- EM-1: SCHED_R = 0, answers ack, 0, 1, 2, 0. -/
theorem witness_WholeEmitTransmitsTheSchedule :
    let s : State := { ex with
      dataV := true, schedV := true, port := [5#32],
      turns := {} :: { reply := some ⟨0, .ack⟩ } :: { reply := some ⟨1, .handle 0#32⟩ } :: { reply := some ⟨2, .handle 1#32⟩ } ::
        { reply := some ⟨3, .handle 2#32⟩ } :: { reply := some ⟨4, .status 0#32⟩ } :: [] }
    let hs := [0#32, 1#32, 2#32]
    s.busy = false ∧ s.schedV = true ∧ s.schedR.toInt = (0 : Nat) ∧ s.port = 5#32 :: [] ∧ hs.length = 3 * 0 + 3 ∧
      (∀ h ∈ hs, 0 ≤ h.toInt) ∧
      s.turns = { reply := none } :: { reply := some ⟨s.trace.length, .ack⟩ } ::
        (hs.zipIdx.map (fun p => { reply := some ⟨s.trace.length + 1 + p.2, .handle p.1⟩ }) ++
          { reply := some ⟨s.trace.length + 1 + (3 * 0 + 3), .status 0#32⟩ } :: []) := by
  refine ⟨rfl, rfl, rfl, rfl, rfl, by simp, rfl⟩

/-- A failure at instance 0 (R184 (c), EM-2), and one at the last instance of SCHED_R = 0 (R184 (d), EM-6). -/
theorem witness_FailedEmitStopsAtTheFailingInstance :
    let s (ts : List Turn) : State := { ex with
      dataV := true, schedV := true, port := [5#32], turns := {} :: { reply := some ⟨0, .ack⟩ } :: ts }
    (∀ ts, (s ts).busy = false ∧ (s ts).schedV = true ∧ (s ts).schedR.toInt = (0 : Nat) ∧ (s ts).port = 5#32 :: []) ∧
      (0x80000000#32).toInt < 0 ∧
      (let t := s [{ reply := some ⟨1, .handle 0x80000000#32⟩ }]
       ([] : List Word).length < 3 * 0 + 3 ∧
         t.turns = { reply := none } :: { reply := some ⟨t.trace.length, .ack⟩ } ::
          (([] : List Word).zipIdx.map (fun p => { reply := some ⟨t.trace.length + 1 + p.2, .handle p.1⟩ }) ++
            { reply := some ⟨t.trace.length + 1 + ([] : List Word).length, .handle 0x80000000#32⟩ } :: [])) ∧
      (let hs := [0x7FFFFFFF#32, 0#32]
       let t := s [{ reply := some ⟨1, .handle 0x7FFFFFFF#32⟩ }, { reply := some ⟨2, .handle 0#32⟩ },
         { reply := some ⟨3, .handle 0x80000000#32⟩ }]
       hs.length < 3 * 0 + 3 ∧ (∀ h ∈ hs, 0 ≤ h.toInt) ∧
         t.turns = { reply := none } :: { reply := some ⟨t.trace.length, .ack⟩ } ::
          (hs.zipIdx.map (fun p => { reply := some ⟨t.trace.length + 1 + p.2, .handle p.1⟩ }) ++
            { reply := some ⟨t.trace.length + 1 + hs.length, .handle 0x80000000#32⟩ } :: [])) := by
  refine ⟨fun _ => ⟨rfl, rfl, rfl, rfl⟩, by decide, ⟨by decide, rfl⟩, ⟨by decide, by simp, rfl⟩⟩

/-- A state with nothing yet encoded and an EMIT waiting: it meets the invariant, and has a next state. -/
theorem witness_EveryStepKeepsTheInvariant :
    let s : State := { ex with
      data := translateFrame exTiming ex.frame, dataV := true, schedV := true, emitPhase := .waitReset, trace := [.reset] }
    s.Inv ∧ ∃ t, step s = .next t := by
  refine ⟨⟨⟨by decide +kernel, by decide +kernel⟩, ⟨fun _ => rfl, fun _ => by decide, fun _ => rfl⟩,
    ⟨by decide, fun h => absurd h (by decide)⟩, ⟨fun h => absurd rfl h, fun _ => rfl⟩,
    ⟨by decide, rfl, rfl, List.suffix_refl _⟩⟩, step_total _⟩

theorem witness_ReachableStatesMeetTheSpecsInvariants :
    Reaches { State.afterReset exCfg with port := [], turns := [{ reset := true }] } ex := ⟨1, rfl⟩

/-- Both commands: an accepted ENCODE, and a CHECKSUM on a Frame whose byte 17 does not hold its checksum. -/
theorem witness_FrameIsWrittenOnlyByEncodeAndChecksum :
    (let s := offering 0x00180211#32
     (∃ t, step s = .next t) ∧ s.turnNow.reset = false ∧ (stepped s).csum ≠ s.csum) ∧
    (let s : State := { offering 2#32 with frame := Vector.replicate 18 1#8 }
     (∃ t, step s = .next t) ∧ s.turnNow.reset = false ∧ (stepped s).csum ≠ s.csum) :=
  ⟨⟨step_total _, by decide, by decide +kernel⟩, ⟨step_total _, by decide, by decide +kernel⟩⟩

theorem witness_DataIsWrittenOnlyByTranslateAndCfgNever :
    (∃ t, step (offering 3#32) = .next t) ∧ (offering 3#32).turnNow.reset = false ∧
      (stepped (offering 3#32)).data[0] ≠ (offering 3#32).data[0] ∧
      (stepped (offering 0x00180211#32)).settings ≠ (offering 0x00180211#32).settings ∧
      (let s : State := { offering 0x00010004#32 with dataV := true }
       (stepped s).schedR ≠ s.schedR) :=
  ⟨step_total _, by decide, by decide +kernel, by decide +kernel, by decide +kernel⟩

/-- An error kept over an accepted CHECKSUM; an EMIT going on. -/
theorem witness_ErrSeenIsStickyAndErrHoldsDuringAnEmit :
    (∃ t, step (offering 0#32) = .next t) ∧ (offering 0#32).turnNow.reset = false ∧
      ({ offering 2#32 with errSeen := true } : State).errSeen = true ∧
      ((staging 0 0 0#32).busy = true ∧ (stepped (staging 0 0 0#32)).busy = true) :=
  ⟨step_total _, by decide, by decide, by decide +kernel⟩

/-- Every cause of R201 for an error code: an illegal word, SEQUENCE with count -1 and SEQUENCE 0 with DATA_V = 0, EMIT
with SCHED_V = 0, and a `stage` answer of -1. -/
theorem witness_ErrSeenIsSticky_causes :
    (offering 0#32).RecordsError ∧ (offering 0x00FF0004#32).RecordsError ∧ (offering 4#32).RecordsError ∧
      (offering 5#32).RecordsError ∧ (staging 1 5 0xFFFFFFFF#32).RecordsError :=
  ⟨.inl ⟨_, _, accepts_offering _, .inl (by unfold IllegalWord; decide)⟩,
    .inl ⟨_, _, accepts_offering _, .inr ⟨.sequence 255#8, by decide, .inl (by decide)⟩⟩,
    .inl ⟨_, _, accepts_offering _, .inr ⟨.sequence 0#8, by decide, .inr rfl⟩⟩,
    .inl ⟨_, _, accepts_offering _, .inr ⟨.emit, by decide, rfl⟩⟩,
    .inr ⟨rfl, _, by decide, answered_staging _ _ _⟩⟩

/-- A step with no such cause: nothing offered. -/
theorem witness_ErrSeenIsSticky_no_cause : ¬ex.RecordsError := by
  rintro (⟨w, ws, h, -⟩ | ⟨h, -⟩)
  · exact absurd h.2.2 (by simp [ex, State.afterReset])
  · exact absurd h (by decide)

theorem witness_AnEmitInProgressLeavesThePipelineAlone :
    (staging 0 0 0#32).busy = true ∧ (staging 0 0 0#32).turnNow.reset = false ∧ ∃ t, step (staging 0 0 0#32) = .next t :=
  ⟨rfl, rfl, step_total _⟩

/-- One request of each kind. -/
theorem witness_RequestsAreIssuedOneAtATimeInOrder :
    (let s : State := { offering 5#32 with schedV := true }
     (stepped s).trace = s.trace ++ [.reset]) ∧
      (stepped (waiting [{ reply := some ⟨0, .ack⟩ }])).trace = [.reset, .stage [3400#32, 1700#32]] ∧
      (stepped (staging 0 2 9#32)).trace = (staging 0 2 9#32).trace ++ [.transmit [0#32, 0#32, 9#32]] :=
  by decide +kernel

theorem witness_HostReadsFollowTheRegisterMap :
    (waiting []).schedV = true ∧ 0 ≤ (waiting []).schedR.toInt ∧ ex.schedV = false := by decide

/-- Each side of every gap of the map: the last address before it, which is listed, and its first and last, which are not. -/
theorem witness_HostReadsFollowTheRegisterMap_unlisted :
    (let listed (n : Nat) : Prop := n ≤ 0x007 ∨ (0x010 ≤ n ∧ n ≤ 0x010 + 17) ∨ (0x030 ≤ n ∧ n ≤ 0x036) ∨
        (0x100 ≤ n ∧ n ≤ 0x100 + 287) ∨ (0x400 ≤ n ∧ n ≤ 0x400 + 383)
     (¬listed 0x008 ∧ ¬listed 0x00F ∧ ¬listed 0x022 ∧ ¬listed 0x02F ∧ ¬listed 0x037 ∧ ¬listed 0x0FF) ∧
      (¬listed 0x220 ∧ ¬listed 0x3FF ∧ ¬listed 0x580 ∧ ¬listed 0xFFF) ∧
      (listed 0x007 ∧ listed 0x021 ∧ listed 0x036 ∧ listed 0x21F ∧ listed 0x57F)) := by
  simp only
  omega

/-- The ends of each reserved range (R63). -/
theorem witness_UnlistedAddressesReadAsZero :
    [0x008#12, 0x00F#12, 0x022#12, 0x02F#12, 0x037#12, 0x0FF#12, 0x220#12, 0x3FF#12, 0x580#12, 0xFFF#12].all (fun a => decide ((0x008 ≤ a.toNat ∧ a.toNat ≤ 0x00F) ∨ (0x022 ≤ a.toNat ∧ a.toNat ≤ 0x02F) ∨ (0x037 ≤ a.toNat ∧ a.toNat ≤ 0x0FF) ∨
        (0x220 ≤ a.toNat ∧ a.toNat ≤ 0x3FF) ∨ 0x580 ≤ a.toNat)) = true := by decide

/-- The two orders the byte-9 fields may stand in, and the first record each check refuses. -/
theorem witness_OnlyAWellFormedConfigurationIsBuilt :
    (∀ k : Nat, ¬((0 ≤ k ∧ k < 0 + 2) ∧ (2 ≤ k ∧ k < 2 + 3))) ∧ (∀ k : Nat, ¬((3 ≤ k ∧ k < 3 + 2) ∧ (0 ≤ k ∧ k < 0 + 3))) ∧
      (∀ k : Nat, ¬((exFields.fanOff ≤ k ∧ k < exFields.fanOff + 2) ∧ (exFields.dirOff ≤ k ∧ k < exFields.dirOff + 3))) ∧
      ¬(∀ k : Nat, ¬((0 ≤ k ∧ k < 0 + 2) ∧ (1 ≤ k ∧ k < 1 + 3))) ∧
      (exFields.powerOff ≤ 7 ∧ exFields.modeAOff ≤ 6 ∧ exFields.tempOff ≤ 4 ∧ exFields.modeBOff ≤ 6 ∧ exFields.fanOff ≤ 6 ∧
        exFields.dirOff ≤ 5) ∧ ¬(6 ≤ 5) ∧
      exTiming.zeroOff.toNat < exTiming.oneOff.toNat ∧ exTiming.bitOn.toNat < exTiming.zeroOff.toNat ∧
      ¬((500#32).toNat < (500#32).toNat) ∧ ¬((500#32).toNat < (500#32).toNat) := by
  refine ⟨fun k => by omega, fun k => by omega, fun k => by simp only [exFields]; omega, fun h => absurd (h 1) (by decide),
    by decide, by decide, by decide, by decide, by decide, by decide⟩

theorem witness_AssembledLinesDecodeToTheirOperands :
    (powerCode (.code 3) < 4 ∧ modeCode (.code 7) < 8 ∧ fanCode (.code 7) < 8 ∧ dirCode (.code 7) < 8 ∧
      (-128 : Int) ≤ -128 ∧ (127 : Int) ≤ 127) ∧ ((-129 : Int) < -128 ∧ (127 : Int) < 128) ∧ 4 ≤ powerCode (.code 4) ∧
      8 ≤ modeCode (.code 8) ∧ 8 ≤ fanCode (.code 8) ∧ 8 ≤ dirCode (.code 8) ∧ 0xFFFFFFFF < 2 ^ 32 ∧ 2 ^ 32 ≤ 0x100000000 := by
  decide

end Sys2Proof.Tests
end

section
/-! Proofs of 00_scope.md: the bit-reversal convention (R13). -/

namespace Sys2Proof.Machine

/-- The model's list sum as a sum over the eight symbols (R13). -/
theorem num_eq_sum_symbols (b : Byte) : num b = ∑ s : Fin 8, (if symbol b s.val then 2 ^ s.val else 0) :=
  Finset.sum_range (n := 8) fun s => if symbol b s then 2 ^ s else 0

theorem symbol_sym8_eq_decide (v s : Nat) (hs : s < 8) : symbol (sym8 v) s = decide (v / 2 ^ s % 2 = 1) := by
  rw [symbol_sym8 v s hs, Nat.testBit_eq_decide_div_mod_eq]

theorem num_sym8_of_lt (v : Nat) (hv : v < 256) : num (sym8 v) = v := by
  rw [num_sym8, Nat.mod_eq_of_lt hv]

/-- Settles O29: `num` is the value of the byte's word and `sym8` the word of a value, so each undoes the other. -/
theorem numericValueTakesTheFirstSymbolAsLeastSignificant :
    Obligations.NumericValueTakesTheFirstSymbolAsLeastSignificant :=
  ⟨num_eq_sum_symbols, num_lt, fun v s _ hs => symbol_sym8_eq_decide v s hs, num_sym8_of_lt, sym8_num⟩

end Sys2Proof.Machine
end

section
/-! What leaves the registers of the pipeline alone (R38), and what each command and each answer does to the invariant. -/

namespace Sys2Proof.Machine

/-! The pipeline's registers: everything ENCODE, CHECKSUM, TRANSLATE and SEQUENCE write but STATUS, and CFG. -/

/-- `t` has the pipeline's registers and the configuration of `s`. -/
structure State.PipelineKept (s t : State) : Prop where
  settings : t.settings = s.settings
  frame    : t.frame = s.frame
  csum     : t.csum = s.csum
  data     : t.data = s.data
  schedR   : t.schedR = s.schedR
  frameV   : t.frameV = s.frameV
  dataV    : t.dataV = s.dataV
  schedV   : t.schedV = s.schedV
  cfg      : t.cfg = s.cfg

/-- No answer of the emitter reaches the pipeline's registers (R184). -/
theorem takeAnswer_keepsPipeline (a : Answer) (s : State) : s.PipelineKept (takeAnswer a s) := by
  rcases takeAnswer_cases a s with h | ⟨-, -, h⟩ | ⟨_, -, -, -, h⟩ | ⟨_, -, -, -, -, h⟩ | ⟨_, -, -, -, -, h⟩ | ⟨_, -, -, h⟩
  all_goals rw [h]; exact ⟨rfl, rfl, rfl, rfl, rfl, rfl, rfl, rfl, rfl⟩

/-- A step without reset leaves the pipeline's registers alone, or it executes an accepted command (R78). -/
theorem step_keepsPipeline_or_executes {s t : State} (h : step s = .next t) (hr : s.turnNow.reset = false) :
    s.PipelineKept t ∨
    ∃ w ws i, s.Accepts w ws ∧ decode w = .ok i ∧ exec i (s.turnTaken.withPort ws) = .next t := by
  rcases step_cases h with ⟨hreset, -⟩ | ⟨-, -, rfl⟩ | ⟨a, -, rfl⟩ | ⟨-, -, -, rfl⟩ |
    ⟨w, ws, hacc, ⟨e, -, rfl⟩ | ⟨i, hd, hex⟩⟩
  · rw [hr] at hreset; cases hreset
  · exact .inl ⟨rfl, rfl, rfl, rfl, rfl, rfl, rfl, rfl, rfl⟩
  · obtain ⟨h1, h2, h3, h4, h5, h6, h7, h8, h9⟩ := takeAnswer_keepsPipeline a s.turnTaken
    exact .inl ⟨h1, h2, h3, h4, h5, h6, h7, h8, h9⟩
  · exact .inl ⟨rfl, rfl, rfl, rfl, rfl, rfl, rfl, rfl, rfl⟩
  · exact .inl ⟨rfl, rfl, rfl, rfl, rfl, rfl, rfl, rfl, rfl⟩
  · exact .inr ⟨w, ws, i, hacc, hd, hex⟩

/-- No command writes CFG (R9). -/
theorem exec_keepsCfg {i : Instr} {s t : State} (h : exec i s = .next t) : t.cfg = s.cfg := by
  rcases exec_cases h with ⟨_, _, _, _, _, -, rfl⟩ | ⟨-, rfl⟩ | ⟨-, rfl⟩ | ⟨_, -, -, -, rfl⟩ | ⟨-, -, rfl⟩ | ⟨_, -, rfl⟩
  all_goals rfl

/-- The command that changed FRAME or CSUM is ENCODE, or it is CHECKSUM and bytes 0 to 16 stand (R21, R130). -/
theorem exec_changesFrame {i : Instr} {s t : State} (h : exec i s = .next t) (hne : t.frame ≠ s.frame ∨ t.csum ≠ s.csum) :
    (∃ power mode fan dir temp, i = .encode power mode fan dir temp) ∨
    (i = .checksum ∧ ∀ (b : Nat) (_ : b < 17), t.frame[b] = s.frame[b]) := by
  rcases exec_cases h with ⟨power, mode, fan, dir, temp, rfl, -⟩ | ⟨rfl, rfl⟩ | ⟨-, rfl⟩ | ⟨_, -, -, -, rfl⟩ | ⟨-, -, rfl⟩ |
    ⟨_, -, rfl⟩
  · exact .inl ⟨power, mode, fan, dir, temp, rfl⟩
  · exact .inr ⟨rfl, fun b hb => by rw [fillChecksum_getElem, if_neg (by omega)]⟩
  all_goals simp at hne

/-- The command that changed DATA is TRANSLATE (R27). -/
theorem exec_changesData {i : Instr} {s t : State} (h : exec i s = .next t) (hne : t.data ≠ s.data) : i = .translate := by
  rcases exec_cases h with ⟨_, _, _, _, _, -, rfl⟩ | ⟨-, rfl⟩ | ⟨hi, -⟩ | ⟨_, -, -, -, rfl⟩ | ⟨-, -, rfl⟩ | ⟨_, -, rfl⟩
  case inr.inr.inl => exact hi
  all_goals exact absurd rfl hne

/-- The command that changed SETTINGS is ENCODE (R22). -/
theorem exec_changesSettings {i : Instr} {s t : State} (h : exec i s = .next t) (hne : t.settings ≠ s.settings) :
    ∃ power mode fan dir temp, i = .encode power mode fan dir temp := by
  rcases exec_cases h with ⟨power, mode, fan, dir, temp, hi, -⟩ | ⟨-, rfl⟩ | ⟨-, rfl⟩ | ⟨_, -, -, -, rfl⟩ | ⟨-, -, rfl⟩ |
    ⟨_, -, rfl⟩
  · exact ⟨power, mode, fan, dir, temp, hi⟩
  all_goals exact absurd rfl hne

/-- The command that changed SCHED_R is SEQUENCE (R28). -/
theorem exec_changesSchedR {i : Instr} {s t : State} (h : exec i s = .next t) (hne : t.schedR ≠ s.schedR) :
    ∃ rep, i = .sequence rep := by
  rcases exec_cases h with ⟨_, _, _, _, _, -, rfl⟩ | ⟨-, rfl⟩ | ⟨-, rfl⟩ | ⟨rep, hi, -⟩ | ⟨-, -, rfl⟩ | ⟨_, -, rfl⟩
  case inr.inr.inr.inl => exact ⟨rep, hi⟩
  all_goals exact absurd rfl hne

/-! The invariant, operation by operation (R234): reset and the boundary fields first, then commands, then answers. -/

/-- An idle core that shows no error code owes STATUS nothing (R204). -/
theorem StatusHolds_of_cleared_idle {t : State} (he : t.err = .none) (hi : t.emitPhase = .idle) : t.StatusHolds :=
  ⟨fun hne => absurd he hne, fun hb => absurd hb (not_busy_of_idle hi)⟩

/-- Byte 17 of the all-zero Frame is its checksum (R37, R39). -/
theorem zeroFrame_checksum : num (Vector.replicate 18 0#8 : Frame)[17] = checksum17 (Vector.replicate 18 0#8) := by
  decide +kernel

/-- A reset state meets the invariant whatever was offered, asked or staged before (R37). -/
theorem Inv_applyReset (s : State) : s.applyReset.Inv where
  checksum := ⟨zeroFrame_checksum, (num_eq_toNat 0#8).symm⟩
  valid := ⟨nofun, nofun, nofun⟩
  frame := ⟨BitVec.zero_and, nofun⟩
  status := StatusHolds_of_cleared_idle rfl rfl
  emit := ⟨Nat.zero_le _, trivial⟩

theorem Inv_turnTaken {s : State} (h : s.Inv) : s.turnTaken.Inv :=
  ⟨h.checksum, h.valid, h.frame, h.status, h.emit⟩

theorem Inv_withPort {s : State} (h : s.Inv) (ws : List Word) : (s.withPort ws).Inv :=
  ⟨h.checksum, h.valid, h.frame, h.status, h.emit⟩

/-- Recording an error code sets the sticky bit with it (R204). -/
theorem Inv_raise {s : State} (h : s.Inv) (c : ErrCode) : (s.raise c).Inv :=
  ⟨h.checksum, h.valid, h.frame, ⟨fun _ => rfl, h.status.2⟩, h.emit⟩

/-- ENCODE fills the checksum of the Frame it builds (R102) and clears the valid bits of what depends on it (R110). -/
theorem Inv_encode {s : State} (h : s.Inv) (hi : s.emitPhase = .idle) (power : BitVec 2) (mode fan dir : BitVec 3)
    (temp : BitVec 8) :
    State.Inv { s with
      frame := encodedFrame s.cfg.params power mode fan dir temp
      csum := sym8 (checksum17 (packedFrame s.cfg.params power mode fan dir temp))
      settings := encode (.encode power mode fan dir temp) &&& settingsMask
      frameV := true, dataV := false, schedV := false, err := .none } where
  checksum := by
    constructor
    · exact (num_fillChecksum_17 _).trans (checksum17_fillChecksum _).symm
    · exact (num_eq_toNat _).symm.trans <| (num_sym8 _).trans <|
        (Nat.mod_eq_of_lt (checksum17_lt _)).trans (num_fillChecksum_17 _).symm
  valid := ⟨nofun, nofun, fun hb => absurd hb (not_busy_of_idle hi)⟩
  frame := ⟨by rw [BitVec.and_assoc]; simp, fun _ => ⟨power, mode, fan, dir, temp, rfl, rfl⟩⟩
  status := StatusHolds_of_cleared_idle rfl hi
  emit := EmitHolds_idle h.emit rfl hi

/-- Where the checksum invariant holds CHECKSUM writes FRAME and CSUM with what they hold (R132). -/
theorem checksum_rewrites_same {s : State} (h : s.ChecksumHolds) :
    fillChecksum s.frame = s.frame ∧ sym8 (checksum17 s.frame) = s.csum := by
  obtain ⟨hbyte, hcsum⟩ := h
  refine ⟨fillChecksum_eq_self _ hbyte, ?_⟩
  rw [← hbyte, ← hcsum, sym8, BitVec.ofNat_toNat, BitVec.setWidth_eq]

theorem Inv_checksum {s : State} (h : s.Inv) :
    State.Inv { s with frame := fillChecksum s.frame, csum := sym8 (checksum17 s.frame), err := .none } := by
  obtain ⟨hframe, hcsum⟩ := checksum_rewrites_same h.checksum
  rw [hframe, hcsum]
  exact ⟨h.checksum, h.valid, h.frame, ⟨fun he => absurd rfl he, h.status.2⟩, h.emit⟩

theorem Inv_translate {s : State} (h : s.Inv) (hi : s.emitPhase = .idle) :
    State.Inv { s with data := translateFrame s.cfg.params.timing s.frame, dataV := true, schedV := false, err := .none } where
  checksum := ChecksumHolds_congr h.checksum rfl rfl
  valid := ⟨fun _ => rfl, nofun, fun hb => absurd hb (not_busy_of_idle hi)⟩
  frame := FrameFromSettings_congr h.frame rfl rfl rfl rfl
  status := StatusHolds_of_cleared_idle rfl hi
  emit := EmitHolds_idle h.emit rfl hi

theorem Inv_sequence {s : State} (h : s.Inv) (hi : s.emitPhase = .idle) {rep : BitVec 8} (hrep : 0 ≤ repOf rep)
    (hdv : s.dataV = true) : State.Inv { s with schedR := rep, schedV := true, err := .none } where
  checksum := h.checksum
  valid := ⟨h.valid.1, fun _ => ⟨hdv, hrep, repOf_le rep⟩, fun _ => rfl⟩
  frame := h.frame
  status := StatusHolds_of_cleared_idle rfl hi
  emit := EmitHolds_idle h.emit rfl hi

/-- An accepted EMIT empties the emitter's set and makes `reset` the last request (R170, R35 (b)). -/
theorem Inv_emit {s : State} (h : s.Inv) (hsv : s.schedV = true) :
    (State.request .reset { s with emitDone := false, emitIdx := 0#9, emitPhase := .waitReset }).Inv where
  checksum := h.checksum
  valid := ⟨h.valid.1, h.valid.2.1, fun _ => hsv⟩
  frame := h.frame
  status := ⟨h.status.1, fun _ => rfl⟩
  emit := ⟨Nat.zero_le _, rfl, rfl, List.suffix_append _ _⟩

/-- Every command an idle core executes keeps the invariant. -/
theorem Inv_exec {i : Instr} {s t : State} (h : s.Inv) (hi : s.emitPhase = .idle) (hex : exec i s = .next t) : t.Inv := by
  rcases exec_cases hex with ⟨power, mode, fan, dir, temp, -, rfl⟩ | ⟨-, rfl⟩ | ⟨-, rfl⟩ | ⟨rep, -, hrep, hdv, rfl⟩ |
    ⟨-, hsv, rfl⟩ | ⟨c, -, rfl⟩
  · exact Inv_encode h hi power mode fan dir temp
  · exact Inv_checksum h
  · exact Inv_translate h hi
  · exact Inv_sequence h hi hrep hdv
  · exact Inv_emit h hsv
  · exact Inv_raise h c

/-! Where an EMIT stands after an answer (R174, R178). -/

theorem requestsTo_succ (s : State) (k : Nat) : s.requestsTo (k + 1) = s.requestsTo k ++ [.stage (s.payload k)] := by
  simp [State.requestsTo, List.range_succ]

/-- A handle stored at index `k` leaves the definitions before it as they are and adds its own (R35 (b)). -/
theorem stagedTo_handleStored (h : Word) {s : State} (hk : s.emitIdx.toNat < 384) :
    (handleStored h s).stagedTo (s.emitIdx.toNat + 1) =
      s.stagedTo s.emitIdx.toNat ++ [(h, s.payload s.emitIdx.toNat)] := by
  have hpay : ∀ j, (handleStored h s).payload j = s.payload j := State.payload_congr rfl rfl rfl
  have hnew : (handleStored h s).handles.getD s.emitIdx.toNat 0#32 = h := by
    simp [vector_getD, hk]
  have hold : ∀ j, j < s.emitIdx.toNat → (handleStored h s).handles.getD j 0#32 = s.handles.getD j 0#32 := by
    intro j hj
    simp [vector_getD, Nat.ne_of_gt hj]
  simp only [State.stagedTo, List.range_succ, List.map_append, List.map_cons, List.map_nil, hpay, hnew]
  congr 1
  exact List.map_congr_left fun j hj => by rw [hold j (List.mem_range.mp hj)]

theorem emitIdx_handleStored (h : Word) {s : State} (hk : s.emitIdx.toNat < 384) :
    (handleStored h s).emitIdx.toNat = s.emitIdx.toNat + 1 := by
  rw [handleStored_emitIdx]
  bv_omega

theorem EmitHolds_waitReset {s : State} (h : s.EmitHolds) (hp : s.emitPhase = .waitReset) :
    s.emitIdx = 0#9 ∧ s.staged = [] ∧ [.reset] <:+ s.trace := by
  have hphase := h.2
  rwa [hp] at hphase

theorem EmitHolds_waitStage {s : State} (h : s.EmitHolds) (hp : s.emitPhase = .waitStage) :
    s.emitIdx.toNat < s.segCount ∧ s.staged = s.stagedTo s.emitIdx.toNat ∧
      s.requestsTo (s.emitIdx.toNat + 1) <:+ s.trace := by
  have hphase := h.2
  rwa [hp] at hphase

/-- An EMIT in progress has a current schedule (R40), so at least one segment to send. -/
theorem segCount_pos_of_busy {s : State} (h : s.ValidBitsHold) (hb : s.busy = true) : 0 < s.segCount := by
  obtain ⟨-, hrange, hbusy⟩ := h
  obtain ⟨-, hr, -⟩ := hrange (hbusy hb)
  rw [segCount_eq s hr]
  omega

/-- After the acknowledgement of `reset` segment 0 is requested and nothing is staged (R172). -/
theorem EmitHolds_resetAnswered {s : State} (h : s.EmitHolds) (hp : s.emitPhase = .waitReset) (hpos : 0 < s.segCount) :
    (resetAnswered s).EmitHolds := by
  obtain ⟨hidx, hstaged, htrace⟩ := EmitHolds_waitReset h hp
  refine ⟨h.1, ?_, ?_, ?_⟩
  all_goals rw [resetAnswered_emitIdx, hidx]
  · exact hpos
  · exact hstaged
  · exact List.suffix_append_self_iff.mpr htrace

/-- After a handle that is not the last the next segment is requested (R173). -/
theorem EmitHolds_nextStaged {s : State} (h : Word) (he : s.EmitHolds) (hp : s.emitPhase = .waitStage)
    (hk : s.emitIdx.toNat + 1 < s.segCount) :
    (State.request (.stage (s.payload (s.emitIdx.toNat + 1))) (handleStored h s)).EmitHolds := by
  obtain ⟨hlt, hstaged, htrace⟩ := EmitHolds_waitStage he hp
  have hidx : s.emitIdx.toNat < 384 := hlt.trans_le (segCount_le s)
  have hnext := emitIdx_handleStored h hidx
  refine ⟨?_, ?_⟩
  · rw [State.request_emitIdx, hnext]; exact hidx
  · rw [State.request_emitPhase, handleStored_emitPhase, hp]
    refine ⟨?_, ?_, ?_⟩
    · rw [State.request_emitIdx, hnext]; exact hk
    · rw [State.request_emitIdx, hnext]
      exact (congrArg (· ++ [(h, s.payload s.emitIdx.toNat)]) hstaged).trans (stagedTo_handleStored h hidx).symm
    · rw [State.request_emitIdx, hnext, requestsTo_succ]
      exact List.suffix_append_self_iff.mpr htrace

/-- After the last handle the handles are requested in emission order (R173). -/
theorem EmitHolds_transmitRequested {s : State} (h : Word) (he : s.EmitHolds) (hp : s.emitPhase = .waitStage)
    (hk : s.segCount ≤ s.emitIdx.toNat + 1) :
    (State.request (.transmit ((handleStored h s).handles.toList.take s.segCount))
      (State.inPhase .waitTx (handleStored h s))).EmitHolds := by
  obtain ⟨hlt, hstaged, htrace⟩ := EmitHolds_waitStage he hp
  have hidx : s.emitIdx.toNat < 384 := hlt.trans_le (segCount_le s)
  have hnext := emitIdx_handleStored h hidx
  have hcount : s.segCount = s.emitIdx.toNat + 1 := by omega
  refine ⟨hnext.trans_le hidx, hnext.trans hcount.symm, ?_, ?_⟩
  · exact (congrArg (· ++ [(h, s.payload s.emitIdx.toNat)]) hstaged).trans
      ((stagedTo_handleStored h hidx).symm.trans (congrArg _ hcount.symm))
  · rw [← hcount] at htrace
    exact List.suffix_append_self_iff.mpr htrace

/-- An answer that leaves the core idle keeps the bookkeeping's bound; each other one moves the EMIT on. -/
theorem EmitHolds_takeAnswer (a : Answer) {s : State} (h : s.Inv) : (takeAnswer a s).EmitHolds := by
  rcases takeAnswer_cases a s with ha | ⟨hp, -, ha⟩ | ⟨hd, -, -, -, ha⟩ | ⟨hd, hp, -, -, hk, ha⟩ | ⟨hd, hp, -, -, hk, ha⟩ |
    ⟨st, -, -, ha⟩
  all_goals rw [ha]
  · exact h.emit
  · exact EmitHolds_resetAnswered h.emit hp (segCount_pos_of_busy h.valid (busy_eq_true.mpr (by rw [hp]; nofun)))
  · exact EmitHolds_idle h.emit rfl rfl
  · exact EmitHolds_nextStaged hd h.emit hp hk
  · exact EmitHolds_transmitRequested hd h.emit hp hk
  · exact EmitHolds_idle h.emit rfl rfl

/-- EMIT_DONE is set only as the EMIT ends, and ERR takes a code only with the sticky bit (R175, R204). -/
theorem StatusHolds_takeAnswer (a : Answer) {s : State} (h : s.StatusHolds) : (takeAnswer a s).StatusHolds := by
  obtain ⟨herr, hdone⟩ := h
  rcases takeAnswer_cases a s with ha | ⟨hp, -, ha⟩ | ⟨_, -, -, -, ha⟩ | ⟨_, -, -, -, -, ha⟩ | ⟨_, hp, -, -, -, ha⟩ | ⟨_, -, -, ha⟩
  all_goals rw [ha]
  · exact ⟨herr, hdone⟩
  · exact ⟨herr, fun _ => hdone (busy_eq_true.mpr (by rw [hp]; nofun))⟩
  · exact ⟨fun _ => rfl, nofun⟩
  · exact ⟨herr, hdone⟩
  · exact ⟨herr, fun _ => hdone (busy_eq_true.mpr (by rw [hp]; nofun))⟩
  · exact StatusHolds_of_cleared_idle rfl rfl

/-- No answer starts an EMIT. -/
theorem busy_of_busy_takeAnswer {a : Answer} {s : State} (h : (takeAnswer a s).busy = true) : s.busy = true := by
  by_contra hb
  have hi : s.emitPhase = .idle := busy_eq_false.mp (by simpa using hb)
  have hsame : takeAnswer a s = s := by simp [takeAnswer, hi]
  exact hb (hsame ▸ h)

/-- Every answer keeps the invariant. -/
theorem Inv_takeAnswer (a : Answer) {s : State} (h : s.Inv) : (takeAnswer a s).Inv := by
  have hk := takeAnswer_keepsPipeline a s
  obtain ⟨hdata, hrange, hbusy⟩ := h.valid
  refine ⟨ChecksumHolds_congr h.checksum hk.frame hk.csum, ⟨?_, ?_, ?_⟩,
    FrameFromSettings_congr h.frame hk.settings hk.frame hk.frameV hk.cfg, StatusHolds_takeAnswer a h.status,
    EmitHolds_takeAnswer a h⟩
  · rwa [hk.dataV, hk.data, hk.cfg, hk.frame]
  · rwa [hk.schedV, hk.dataV, hk.schedR]
  · rw [hk.schedV]; exact fun hb => hbusy (busy_of_busy_takeAnswer hb)

/-- Settles O47: each of the kinds of step keeps every part of the invariant. -/
theorem everyStepKeepsTheInvariant : Obligations.EveryStepKeepsTheInvariant := by
  intro s t h hs
  have htaken := Inv_turnTaken h
  rcases step_cases hs with ⟨-, rfl⟩ | ⟨-, -, rfl⟩ | ⟨a, -, rfl⟩ | ⟨-, -, -, rfl⟩ | ⟨w, ws, ⟨hb, -, -⟩, ⟨e, -, rfl⟩ | ⟨i, -, hex⟩⟩
  · exact Inv_applyReset _
  · exact htaken
  · exact Inv_takeAnswer a htaken
  · exact htaken
  · exact Inv_raise (Inv_withPort htaken ws) .illegal
  · exact Inv_exec (Inv_withPort htaken ws) (busy_eq_false.mp hb) hex

/-- Settles O49: the start state is a reset state, so a run keeps the invariant, and its parts are the claim. -/
theorem reachableStatesMeetTheSpecsInvariants : Obligations.ReachableStatesMeetTheSpecsInvariants := by
  intro c cmds env t hreach
  have hstart : State.Inv { State.afterReset c with port := cmds, turns := env } :=
    Inv_applyReset { State.afterReset c with port := cmds, turns := env }
  obtain ⟨⟨hbyte, hcsum⟩, hvalid, -, -, -⟩ := hreach.keeps everyStepKeepsTheInvariant hstart
  exact ⟨by rw [hbyte, checksum17, sum17_eq], hcsum, hvalid⟩

/-- Settles O50: such a step executes a command, and only ENCODE and CHECKSUM write FRAME or CSUM. -/
theorem frameIsWrittenOnlyByEncodeAndChecksum : Obligations.FrameIsWrittenOnlyByEncodeAndChecksum := by
  intro s t hs hr hne
  rcases step_keepsPipeline_or_executes hs hr with hk | ⟨w, ws, i, hacc, hd, hex⟩
  · rcases hne with hf | hc
    · exact absurd hk.frame hf
    · exact absurd hk.csum hc
  · refine ⟨w, ws, hacc, ?_⟩
    rcases exec_changesFrame hex hne with ⟨power, mode, fan, dir, temp, rfl⟩ | ⟨rfl, hbytes⟩
    · exact .inl ⟨power, mode, fan, dir, temp, hd⟩
    · exact .inr ⟨hd, hbytes⟩

/-- CFG is fixed at build: no step changes it, reset included (R9). -/
theorem step_keepsCfg {s t : State} (h : step s = .next t) : t.cfg = s.cfg := by
  cases hr : s.turnNow.reset with
  | true => rw [step_reset hr] at h; injection h with h; subst h; rfl
  | false =>
    rcases step_keepsPipeline_or_executes h hr with hk | ⟨w, ws, i, -, -, hex⟩
    · exact hk.cfg
    · have hcfg := exec_keepsCfg hex
      exact hcfg

/-- Settles O51: a step that changes one of these registers executes the one command that writes it. -/
theorem dataIsWrittenOnlyByTranslateAndCfgNever : Obligations.DataIsWrittenOnlyByTranslateAndCfgNever := by
  intro s t hs
  refine ⟨step_keepsCfg hs, fun hr => ?_⟩
  rcases step_keepsPipeline_or_executes hs hr with hk | ⟨w, ws, i, hacc, hd, hex⟩
  · exact ⟨fun hne => absurd hk.data hne, fun hne => absurd hk.settings hne, fun hne => absurd hk.schedR hne⟩
  · refine ⟨fun hne => ⟨w, ws, hacc, ?_⟩, fun hne => ⟨w, ws, hacc, ?_⟩, fun hne => ⟨w, ws, hacc, ?_⟩⟩
    · obtain rfl := exec_changesData hex hne
      exact hd
    · obtain ⟨power, mode, fan, dir, temp, rfl⟩ := exec_changesSettings hex hne
      exact ⟨power, mode, fan, dir, temp, hd⟩
    · obtain ⟨rep, rfl⟩ := exec_changesSchedR hex hne
      exact ⟨rep, hd⟩

end Sys2Proof.Machine
end

section
/-! Host reads (R51): after reset (R37), of what a command does not own (R38), and of STATUS (R30). -/

namespace Sys2Proof.Machine

theorem hostRead_status (s : State) : hostRead 0#12 s = s.status := rfl

/-- The timing table's addresses read CFG.TIMING and nothing else of the state (R56). -/
theorem hostRead_timing {a : Addr} (h : 0x030 ≤ a.toNat ∧ a.toNat ≤ 0x036) (s : State) :
    hostRead a s = readTiming a.toNat s.cfg.params.timing := by
  unfold hostRead
  rw [if_neg (by omega), if_neg (by omega), if_pos (by omega)]

theorem readTiming_unlisted {n : Nat} (h : ¬(0x030 ≤ n ∧ n ≤ 0x036)) (tm : Timing) : readTiming n tm = 0#32 := by
  unfold readTiming
  split
  case h_8 => rfl
  all_goals simp at h

/-- STATUS as the number its fields add up to (R30). -/
theorem status_toNat (s : State) : s.status.toNat =
    s.busy.toNat + 2 * s.frameV.toNat + 4 * s.dataV.toNat + 8 * s.schedV.toNat + 16 * s.emitDone.toNat +
      32 * s.errSeen.toNat + 64 * (phaseNumber s.emitPhase).toNat + 256 * (errNumber s.err).toNat := by
  simp only [State.status, toNat_append_eq, BitVec.toNat_ofBool, BitVec.toNat_zero]
  omega

theorem status_afterReset (c : Cfg) : (State.afterReset c).status = 0#32 :=
  BitVec.eq_of_toNat_eq (status_toNat _)

theorem readLow_afterReset (n : Nat) (c : Cfg) : readLow n (State.afterReset c) = 0#32 := by
  unfold readLow
  split
  case h_1 => exact status_afterReset c
  all_goals rfl

theorem replicate_getD {α : Type} (n i : Nat) (d : α) : (Vector.replicate n d).getD i d = d := by
  rw [vector_getD]
  split
  · exact Vector.getElem_replicate _
  · rfl

/-- Right after reset every address but the timing table's reads zero (R37). -/
theorem hostRead_afterReset (c : Cfg) {a : Addr} (h : ¬(0x030 ≤ a.toNat ∧ a.toNat ≤ 0x036)) :
    hostRead a (State.afterReset c) = 0#32 := by
  unfold hostRead
  dsimp only
  split_ifs
  · exact readLow_afterReset _ c
  · rw [State.afterReset, replicate_getD]; rfl
  · exact readTiming_unlisted h _
  · exact replicate_getD 288 _ _
  · exact replicate_getD 384 _ _
  · rfl

theorem symbol_zero (k : Nat) : symbol 0#8 k = false := BitVec.getLsbD_zero

theorem symbol_zeroFrame (b k : Nat) (hb : b < 18) : symbol (Vector.replicate 18 0#8 : Frame)[b] k = false := by
  rw [Vector.getElem_replicate, symbol_zero]

/-- A reset turn reads as the state after reset: the port, the turns, the trace and the staged set are not on the host's
side (R231). -/
theorem hostRead_applyReset (a : Addr) (s : State) : hostRead a s.applyReset = hostRead a (State.afterReset s.cfg) := rfl

/-- Settles O10: the step is `applyReset`, whose host words are those of the state after reset. -/
theorem resetPutsEveryRegisterToItsResetValue : Obligations.ResetPutsEveryRegisterToItsResetValue := by
  intro s hr
  refine ⟨_, step_reset hr, fun a => ?_, rfl, rfl, rfl, symbol_zeroFrame, rfl, rfl, rfl, rfl, rfl, rfl, rfl, rfl, rfl⟩
  split
  · next ht => rw [hostRead_timing ht, hostRead_timing ht]; rfl
  · next ht => rw [hostRead_applyReset, hostRead_afterReset _ ht]

/-- Settles O11: the state after reset in the build's configuration. -/
theorem resetStateReadsAsTheSpecSays : Obligations.ResetStateReadsAsTheSpecSays :=
  ⟨fun _ ha => hostRead_afterReset Config.cfg ha, rfl, rfl, rfl, rfl, rfl, fun _ hk => Vector.getElem_replicate hk,
    fun _ hk => Vector.getElem_replicate hk, symbol_zeroFrame, rfl, rfl, rfl, status_afterReset _, rfl, rfl, rfl⟩

/-- A bit of STATUS stands where the fields at it stand (R30). -/
theorem status_getLsbD_congr (k : Nat) {s t : State} (hp : t.emitPhase = s.emitPhase) (hd : t.emitDone = s.emitDone)
    (hs : t.errSeen = s.errSeen) (hfv : k = 1 → t.frameV = s.frameV) (hdv : k = 2 → t.dataV = s.dataV)
    (hsv : k = 3 → t.schedV = s.schedV) (he : 8 ≤ k → k ≤ 11 → t.err = s.err) :
    t.status.getLsbD k = s.status.getLsbD k := by
  simp only [status_getLsbD, State.busy, hp, hd, hs]
  split_ifs with h0 h1 h2 h3 h4 h5 h8 h12
  case pos => rfl
  · exact hfv h1
  · exact hdv h2
  · exact hsv h3
  · rfl
  · rfl
  · rfl
  · rw [he (by omega) (by omega)]
  · rfl

/-- Settles O23: ENCODE writes the registers at the addresses excepted, and with SCHED_V = 0 the schedule's sizes read 0. -/
theorem encodeLeavesOtherHostWordsAlone : Obligations.EncodeLeavesOtherHostWordsAlone := by
  intro s power mode fan dir temp
  refine ⟨_, rfl, fun a h0 h1 h2 h4 h5 hframe => ?_, rfl, rfl, fun k hk1 hk2 hk3 herr => ?_⟩
  · refine hostRead_congr a (fun _ => ?_) (fun hl hu => absurd ⟨hl, by omega⟩ hframe) rfl (fun _ _ => rfl) (fun _ _ => rfl)
    exact readLow_congr _ (absurd · h0) (absurd · h1) (absurd · h2) (fun _ => rfl) (absurd · h4) (absurd · h5)
      (fun _ => rfl) (fun _ => rfl)
  · exact status_getLsbD_congr k rfl rfl rfl (absurd · hk1) (absurd · hk2) (absurd · hk3) fun hl hu => absurd ⟨hl, hu⟩ herr

/-- Settles O31: TRANSLATE writes DATA, two valid bits and ERR. -/
theorem translateLeavesOtherHostWordsAlone : Obligations.TranslateLeavesOtherHostWordsAlone := by
  intro s
  refine ⟨_, rfl, fun a h0 h4 h5 hdata => ?_, fun k hk2 hk3 herr => ?_⟩
  · refine hostRead_congr a (fun _ => ?_) (fun _ _ => rfl) rfl (fun hl hu => absurd ⟨hl, hu⟩ hdata) (fun _ _ => rfl)
    exact readLow_congr _ (absurd · h0) (fun _ => rfl) (fun _ => rfl) (fun _ => rfl) (absurd · h4) (absurd · h5)
      (fun _ => rfl) (fun _ => rfl)
  · exact status_getLsbD_congr k rfl rfl rfl (fun _ => rfl) (absurd · hk2) (absurd · hk3) fun hl hu => absurd ⟨hl, hu⟩ herr

/-- Settles O57: STATUS is the sum of its fields, and the phase and error numbers are those of R32 and R201. -/
theorem statusWordHasTheStatedFields : Obligations.StatusWordHasTheStatedFields := by
  intro s
  rw [hostRead_status, status_toNat, State.busy]
  generalize s.emitPhase = phase
  generalize s.err = code
  congr 1
  · cases phase <;> rfl
  · cases code <;> rfl

end Sys2Proof.Machine
end

section
/-! Building an IRENC (R25, R26, R233): the four named checks as inequalities, and what `build` answers. -/

namespace Sys2Proof

theorem FieldMap.fits_iff (m : FieldMap) : m.fits = true ↔
    m.powerOff ≤ 7 ∧ m.modeAOff ≤ 6 ∧ m.tempOff ≤ 4 ∧ m.modeBOff ≤ 6 ∧ m.fanOff ≤ 6 ∧ m.dirOff ≤ 5 := by
  simp only [FieldMap.fits, Bool.and_eq_true, decide_eq_true_eq]
  omega

/-- Ranges of 2 and 3 symbols share a position exactly when neither lies wholly before the other. -/
theorem FieldMap.disjoint9_iff (m : FieldMap) : m.disjoint9 = true ↔
    ∀ k : Nat, ¬((m.fanOff ≤ k ∧ k < m.fanOff + 2) ∧ (m.dirOff ≤ k ∧ k < m.dirOff + 3)) := by
  simp only [FieldMap.disjoint9, Bool.or_eq_true, decide_eq_true_eq]
  constructor
  · intro h k
    omega
  · intro h
    have hlater := h (max m.fanOff m.dirOff)
    omega

theorem Timing.oneGtZero_iff (t : Timing) : t.oneGtZero = true ↔ t.zeroOff.toNat < t.oneOff.toNat := decide_eq_true_iff

theorem Timing.zeroGtSep_iff (t : Timing) : t.zeroGtSep = true ↔ t.bitOn.toNat < t.zeroOff.toNat := decide_eq_true_iff

theorem Params.wf_iff (p : Params) : p.wf = true ↔
    p.fieldMap.fits = true ∧ p.fieldMap.disjoint9 = true ∧ p.timing.oneGtZero = true ∧ p.timing.zeroGtSep = true := by
  simp only [Params.wf, Bool.and_eq_true, and_assoc]

theorem Params.firstFailed_eq_none_of_wf {p : Params} (h : p.wf = true) : p.firstFailed = none := by
  obtain ⟨hfits, hdisjoint, hone, hsep⟩ := p.wf_iff.mp h
  simp [Params.firstFailed, hfits, hdisjoint, hone, hsep]

end Sys2Proof

namespace Sys2Proof.Machine

theorem build_of_wf {p : Params} (h : p.wf = true) : build p = .next (State.afterReset ⟨p, h⟩) := dif_pos h

/-- `build` refuses a record by the name of its first failed check (R233). -/
theorem build_of_firstFailed {p : Params} {c : CfgCheck} (h : p.firstFailed = some c) : build p = .refused (.badConfig c) := by
  have hwf : ¬p.wf = true := fun hw => by rw [Params.firstFailed_eq_none_of_wf hw] at h; cases h
  rw [build, dif_neg hwf, h]
  rfl

/-- Settles O58: each clause fixes the first failed check, which `build` then answers. -/
theorem onlyAWellFormedConfigurationIsBuilt : Obligations.OnlyAWellFormedConfigurationIsBuilt := by
  intro p
  dsimp only
  rw [← FieldMap.fits_iff, ← FieldMap.disjoint9_iff, ← Timing.oneGtZero_iff, ← Timing.zeroGtSep_iff]
  refine ⟨fun h => ?_, fun hf => ?_, fun hf hd => ?_, fun hf hd ho => ?_, fun hf hd ho hz => ?_⟩
  · have hwf := p.wf_iff.mpr h
    exact ⟨⟨p, hwf⟩, rfl, build_of_wf hwf⟩
  · exact build_of_firstFailed (by simp [Params.firstFailed, hf])
  · exact build_of_firstFailed (by simp [Params.firstFailed, hf, hd])
  · exact build_of_firstFailed (by simp [Params.firstFailed, hf, hd, ho])
  · exact build_of_firstFailed (by simp [Params.firstFailed, hf, hd, ho, hz])

end Sys2Proof.Machine
end

section
/-! The register map (R51 to R57, R63): what each listed address returns, and that no other address returns anything. -/

namespace Sys2Proof.Machine

/-! One lemma per range of the map: what a read of it returns. -/

theorem addr_toNat {n : Nat} (h : n < 4096) : (BitVec.ofNat 12 n : Addr).toNat = n := by
  rw [BitVec.toNat_ofNat, Nat.mod_eq_of_lt h]

theorem hostRead_frame {a : Addr} {b : Nat} (hb : b < 18) (ha : a.toNat = 0x010 + b) (s : State) :
    hostRead a s = BitVec.ofNat 32 (num s.frame[b]) := by
  unfold hostRead
  rw [if_neg (by omega), if_pos (by omega), vector_getD, dif_pos (by omega)]
  simp only [ha, Nat.add_sub_cancel_left]

theorem hostRead_data {a : Addr} {k : Nat} (hk : k < 288) (ha : a.toNat = 0x100 + k) (s : State) :
    hostRead a s = s.data[k] := by
  unfold hostRead
  rw [if_neg (by omega), if_neg (by omega), if_neg (by omega), if_pos (by omega), vector_getD, dif_pos (by omega)]
  simp only [ha, Nat.add_sub_cancel_left]

theorem hostRead_handles {a : Addr} {k : Nat} (hk : k < 384) (ha : a.toNat = 0x400 + k) (s : State) :
    hostRead a s = s.handles[k] := by
  unfold hostRead
  rw [if_neg (by omega), if_neg (by omega), if_neg (by omega), if_neg (by omega), if_pos (by omega), vector_getD,
    dif_pos (by omega)]
  simp only [ha, Nat.add_sub_cancel_left]

/-- Below 0x010 only the first eight addresses are listed (R51). -/
theorem readLow_unlisted {n : Nat} (h : 0x008 ≤ n) (s : State) : readLow n s = 0#32 := by
  unfold readLow
  split
  case h_9 => rfl
  all_goals simp at h

/-- An address the map does not list reads zero (R52). -/
theorem hostRead_unlisted {a : Addr} (h : ¬(a.toNat ≤ 0x007 ∨ (0x010 ≤ a.toNat ∧ a.toNat ≤ 0x010 + 17) ∨
      (0x030 ≤ a.toNat ∧ a.toNat ≤ 0x036) ∨ (0x100 ≤ a.toNat ∧ a.toNat ≤ 0x100 + 287) ∨
      (0x400 ≤ a.toNat ∧ a.toNat ≤ 0x400 + 383))) (s : State) : hostRead a s = 0#32 := by
  unfold hostRead
  dsimp only
  split_ifs with hlow hframe htiming hdata hhandles
  · exact readLow_unlisted (by omega) s
  · omega
  · exact readTiming_unlisted (by omega) _
  · omega
  · omega
  · rfl

/-! The words as numbers: of a Frame byte (R53), of the schedule's sizes (R57). -/

/-- A word that is a byte's number shows symbol `k` of it as bit `k`, and 0 above (R53). -/
theorem getLsbD_eq_symbol {w : Word} {b : Byte} (h : w.toNat = num b) (k : Nat) : w.getLsbD k = symbol b k := by
  rw [symbol, ← BitVec.testBit_toNat, ← BitVec.testBit_toNat, h, num_eq_toNat]

theorem hostRead_frame_toNat {a : Addr} {b : Nat} (hb : b < 18) (ha : a.toNat = 0x010 + b) (s : State) :
    (hostRead a s).toNat = num s.frame[b] := by
  have hlt := num_lt s.frame[b]
  rw [hostRead_frame hb ha, BitVec.toNat_ofNat, Nat.mod_eq_of_lt (by omega)]

theorem toNat_ofInt_of_lt {v : Int} (h0 : 0 ≤ v) (h : v < 2 ^ 32) : ((BitVec.ofInt 32 v).toNat : Int) = v := by
  rw [BitVec.toNat_ofInt]
  omega

/-- With a schedule of non-negative count `r` its sizes read `3r + 3` and `292(r + 1)`: `r` is at most 127, so neither
wraps (R57). -/
theorem hostRead_scheduleSizes {s : State} (hv : s.schedV = true) (hr : 0 ≤ s.schedR.toInt) :
    ((hostRead 4#12 s).toNat : Int) = 3 * s.schedR.toInt + 3 ∧
      ((hostRead 5#12 s).toNat : Int) = 292 * (s.schedR.toInt + 1) := by
  have hle : s.schedR.toInt ≤ 127 := repOf_le s.schedR
  have hnseg : hostRead 4#12 s = BitVec.ofInt 32 (3 * s.schedR.toInt + 3) := if_pos hv
  have hlen : hostRead 5#12 s = BitVec.ofInt 32 (292 * (s.schedR.toInt + 1)) := if_pos hv
  rw [hnseg, hlen]
  exact ⟨toNat_ofInt_of_lt (by omega) (by omega), toNat_ofInt_of_lt (by omega) (by omega)⟩

theorem hostRead_scheduleSizes_none {s : State} (hv : s.schedV = false) :
    hostRead 4#12 s = 0#32 ∧ hostRead 5#12 s = 0#32 := by
  have hnot : ¬s.schedV = true := by simp [hv]
  exact ⟨if_neg hnot, if_neg hnot⟩

/-- Settles O55: range by range; a register at a fixed address is the model's table read there. -/
theorem hostReadsFollowTheRegisterMap : Obligations.HostReadsFollowTheRegisterMap := by
  intro s
  refine ⟨fun b hb => ?_, fun k hk => hostRead_data hk (addr_toNat (by omega)) s,
    fun k hk => hostRead_handles hk (addr_toNat (by omega)) s, ?csum, rfl, ?schedR, rfl, ?emitIdx,
    hostRead_scheduleSizes, hostRead_scheduleSizes_none, ⟨rfl, rfl, rfl, rfl, rfl, rfl, rfl⟩, hostRead_status s,
    fun a ha => hostRead_unlisted ha s⟩
  case csum => exact BitVec.toNat_setWidth_of_le (by decide : 8 ≤ 32)
  case schedR => exact BitVec.toNat_setWidth_of_le (by decide : 8 ≤ 32)
  case emitIdx => exact BitVec.toNat_setWidth_of_le (by decide : 9 ≤ 32)
  · have hnum := hostRead_frame_toNat hb (addr_toNat (by omega)) s
    exact ⟨hnum, getLsbD_eq_symbol hnum⟩

/-- Settles O56: each reserved range lies between two listed ones. -/
theorem unlistedAddressesReadAsZero : Obligations.UnlistedAddressesReadAsZero :=
  fun s _ h => hostRead_unlisted (by omega) s

end Sys2Proof.Machine
end

section
/-! The requests a step issues (R67, R171): what a command and an answer add to the emitter trace. -/

namespace Sys2Proof.Machine

theorem outstanding_of_not_busy {s : State} (h : s.busy = false) : s.outstanding = none := by
  simp [State.outstanding, h]

/-- A command issues no request but EMIT's `reset` (R170). -/
theorem exec_trace {i : Instr} {s t : State} (h : exec i s = .next t) :
    t.trace = s.trace ∨ (t.trace = s.trace ++ [.reset] ∧ t.emitPhase = .waitReset) := by
  rcases exec_cases h with ⟨_, _, _, _, _, -, rfl⟩ | ⟨-, rfl⟩ | ⟨-, rfl⟩ | ⟨_, -, -, -, rfl⟩ | ⟨-, -, rfl⟩ | ⟨_, -, rfl⟩
  case inr.inr.inr.inr.inl => exact .inr ⟨rfl, rfl⟩
  all_goals exact .inl rfl

/-- An answer issues at most one request: `stage` on an `ack` of `reset` or on a handle, `transmit` on a handle (R172,
R173). -/
theorem takeAnswer_trace (a : Answer) (s : State) :
    (takeAnswer a s).trace = s.trace ∨
    (∃ l, (takeAnswer a s).trace = s.trace ++ [.stage l] ∧ (takeAnswer a s).emitPhase = .waitStage ∧
      ((s.emitPhase = .waitReset ∧ a = .ack) ∨ (s.emitPhase = .waitStage ∧ ∃ h, a = .handle h))) ∨
    (∃ hs, (takeAnswer a s).trace = s.trace ++ [.transmit hs] ∧ (takeAnswer a s).emitPhase = .waitTx ∧
      s.emitPhase = .waitStage ∧ ∃ h, a = .handle h) := by
  rcases takeAnswer_cases a s with ht | ⟨hp, ha, ht⟩ | ⟨_, -, -, -, ht⟩ | ⟨h, hp, ha, -, -, ht⟩ | ⟨h, hp, ha, -, -, ht⟩ |
    ⟨_, -, -, ht⟩
  all_goals rw [ht]
  · exact .inl rfl
  · exact .inr (.inl ⟨_, rfl, rfl, .inl ⟨hp, ha⟩⟩)
  · exact .inl rfl
  · exact .inr (.inl ⟨_, rfl, hp, .inr ⟨hp, h, ha⟩⟩)
  · exact .inr (.inr ⟨_, rfl, rfl, hp, h, ha⟩)
  · exact .inl rfl

/-- Settles O54: only an answer and an accepted command can issue a request, and a command is accepted only with none
outstanding. -/
theorem requestsAreIssuedOneAtATimeInOrder : Obligations.RequestsAreIssuedOneAtATimeInOrder := by
  intro s t hs
  rcases step_cases hs with ⟨-, rfl⟩ | ⟨-, -, rfl⟩ | ⟨a, hans, rfl⟩ | ⟨-, -, -, rfl⟩ |
    ⟨w, ws, ⟨hb, -, -⟩, ⟨e, -, rfl⟩ | ⟨i, -, hex⟩⟩
  · exact .inl rfl
  · exact .inl rfl
  · rcases takeAnswer_trace a s.turnTaken with hkept | ⟨l, htrace, hphase, ⟨hp, rfl⟩ | ⟨hp, h, rfl⟩⟩ |
      ⟨handles, htrace, hphase, hp, h, rfl⟩
    · exact .inl hkept
    · exact .inr (.inr (.inl ⟨l, htrace, hphase, .inl ⟨hp, hans⟩⟩))
    · exact .inr (.inr (.inl ⟨l, htrace, hphase, .inr ⟨hp, h, hans⟩⟩))
    · exact .inr (.inr (.inr ⟨handles, htrace, hphase, hp, h, hans⟩))
  · exact .inl rfl
  · exact .inl rfl
  · rcases exec_trace hex with hkept | ⟨htrace, hphase⟩
    · exact .inl hkept
    · exact .inr (.inl ⟨htrace, outstanding_of_not_busy hb, hphase⟩)

end Sys2Proof.Machine
end

section
/-! Command words (R70 to R77): the decoder's fields as numbers, and decoding and encoding as inverses of each other. -/

namespace Sys2Proof.Machine

/-! The pieces of a word the decoder looks at, as numbers. -/

theorem extractLsb'_toNat_eq_div_mod (w : Word) (lo n : Nat) : (w.extractLsb' lo n).toNat = w.toNat / 2 ^ lo % 2 ^ n := by
  rw [BitVec.extractLsb'_toNat, Nat.shiftRight_eq_div_pow]

theorem opField_toNat (w : Word) : (opField w).toNat = w.toNat % 16 := by
  rw [opField, extractLsb'_toNat_eq_div_mod]
  omega

/-- Format S reserves [31:24] and [15] (R72). -/
theorem reservedClearS_iff (w : Word) : reservedClearS w = true ↔ w.toNat / 2 ^ 24 = 0 ∧ w.toNat / 2 ^ 15 % 2 = 0 := by
  have hlt := w.isLt
  simp only [reservedClearS, Bool.and_eq_true, beq_iff_eq, ← BitVec.toNat_inj, extractLsb'_toNat_eq_div_mod, BitVec.toNat_ofNat]
  omega

/-- Format R reserves [31:24] and [15:4] (R73). -/
theorem reservedClearR_iff (w : Word) : reservedClearR w = true ↔ w.toNat / 2 ^ 24 = 0 ∧ w.toNat / 2 ^ 4 % 2 ^ 12 = 0 := by
  have hlt := w.isLt
  simp only [reservedClearR, Bool.and_eq_true, beq_iff_eq, ← BitVec.toNat_inj, extractLsb'_toNat_eq_div_mod, BitVec.toNat_ofNat]
  omega

/-- Format N reserves [31:4] (R74). -/
theorem reservedClearN_iff (w : Word) : reservedClearN w = true ↔ w.toNat / 2 ^ 4 = 0 := by
  have hlt := w.isLt
  simp only [reservedClearN, beq_iff_eq, ← BitVec.toNat_inj, extractLsb'_toNat_eq_div_mod, BitVec.toNat_ofNat]
  omega

/-! The decoder, one equation per opcode (R76). -/

theorem decode_op_encode {w : Word} (h : w.toNat % 16 = 1) :
    decode w = if reservedClearS w then
      .ok (.encode (w.extractLsb' 4 2) (w.extractLsb' 6 3) (w.extractLsb' 9 3) (w.extractLsb' 12 3) (w.extractLsb' 16 8))
    else .error (.reservedBits (opField w)) := by
  simp only [decode, opField_toNat, h]

theorem decode_op_checksum {w : Word} (h : w.toNat % 16 = 2) :
    decode w = if reservedClearN w then .ok .checksum else .error (.reservedBits (opField w)) := by
  simp only [decode, opField_toNat, h]

theorem decode_op_translate {w : Word} (h : w.toNat % 16 = 3) :
    decode w = if reservedClearN w then .ok .translate else .error (.reservedBits (opField w)) := by
  simp only [decode, opField_toNat, h]

theorem decode_op_sequence {w : Word} (h : w.toNat % 16 = 4) :
    decode w = if reservedClearR w then .ok (.sequence (w.extractLsb' 16 8)) else .error (.reservedBits (opField w)) := by
  simp only [decode, opField_toNat, h]

theorem decode_op_emit {w : Word} (h : w.toNat % 16 = 5) :
    decode w = if reservedClearN w then .ok .emit else .error (.reservedBits (opField w)) := by
  simp only [decode, opField_toNat, h]

theorem decode_op_illegal {w : Word} (h : w.toNat % 16 = 0 ∨ 6 ≤ w.toNat % 16) :
    decode w = .error (.illegalOpcode (opField w)) := by
  unfold decode
  rw [opField_toNat]
  split
  case h_6 => rfl
  all_goals omega

/-! Decoding what was encoded. -/

/-- Settles O1: the value of the word gives back its opcode, its clear reserved bits and each operand. -/
theorem decodeOfEncodeIsIdentity : Obligations.DecodeOfEncodeIsIdentity := by
  intro i _
  cases i with
  | encode power mode fan dir temp =>
    have hval := encode_encode_toNat power mode fan dir temp
    have hclear : reservedClearS (encode (.encode power mode fan dir temp)) = true := by
      rw [reservedClearS_iff]
      omega
    rw [decode_op_encode (by omega), if_pos hclear]
    simp only [Except.ok.injEq, Instr.encode.injEq, ← BitVec.toNat_inj, extractLsb'_toNat_eq_div_mod]
    omega
  | checksum => rfl
  | translate => rfl
  | sequence rep =>
    have hval := encode_sequence_toNat rep
    have hclear : reservedClearR (encode (.sequence rep)) = true := by
      rw [reservedClearR_iff]
      omega
    rw [decode_op_sequence (by omega), if_pos hclear]
    simp only [Except.ok.injEq, Instr.sequence.injEq, ← BitVec.toNat_inj, extractLsb'_toNat_eq_div_mod]
    omega
  | emit => rfl

theorem decode_encode (i : Instr) : decode (encode i) = .ok i := decodeOfEncodeIsIdentity i rfl

/-! Encoding what was decoded. -/

/-- A word of an operandless command: with its reserved bits clear it is the opcode itself (R74). -/
theorem decode_cases_formatN {w : Word} {i : Instr} {e : DecodeError}
    (hop : w.toNat % 16 = 2 ∨ w.toNat % 16 = 3 ∨ w.toNat % 16 = 5)
    (hdecode : decode w = if reservedClearN w then .ok i else .error e) (hencode : (encode i).toNat = w.toNat % 16) :
    (¬IllegalWord w ∧ ∃ j, decode w = .ok j ∧ encode j = w) ∨ (IllegalWord w ∧ ∃ e, decode w = .error e) := by
  unfold IllegalWord
  by_cases hclear : reservedClearN w = true
  · rw [if_pos hclear] at hdecode
    rw [reservedClearN_iff] at hclear
    exact .inl ⟨by omega, i, hdecode, BitVec.eq_of_toNat_eq (by omega)⟩
  · rw [if_neg hclear] at hdecode
    rw [reservedClearN_iff] at hclear
    exact .inr ⟨by omega, e, hdecode⟩

/-- A word is legal and the encoding of the command it decodes to, or it is illegal and refused: opcode by opcode, then
by the reserved bits of the opcode's format (R76, R77). -/
theorem decode_cases (w : Word) :
    (¬IllegalWord w ∧ ∃ i, decode w = .ok i ∧ encode i = w) ∨ (IllegalWord w ∧ ∃ e, decode w = .error e) := by
  have hop : w.toNat % 16 = 1 ∨ w.toNat % 16 = 2 ∨ w.toNat % 16 = 3 ∨ w.toNat % 16 = 4 ∨ w.toNat % 16 = 5 ∨
      (w.toNat % 16 = 0 ∨ 6 ≤ w.toNat % 16) := by omega
  rcases hop with h | h | h | h | h | h
  · rw [decode_op_encode h]
    unfold IllegalWord
    split <;> rename_i hclear <;> rw [reservedClearS_iff] at hclear
    · refine .inl ⟨by omega, _, rfl, BitVec.eq_of_toNat_eq ?_⟩
      simp only [encode_encode_toNat, extractLsb'_toNat_eq_div_mod]
      omega
    · exact .inr ⟨by omega, _, rfl⟩
  · exact decode_cases_formatN (by omega) (decode_op_checksum h) h.symm
  · exact decode_cases_formatN (by omega) (decode_op_translate h) h.symm
  · rw [decode_op_sequence h]
    unfold IllegalWord
    split <;> rename_i hclear <;> rw [reservedClearR_iff] at hclear
    · refine .inl ⟨by omega, _, rfl, BitVec.eq_of_toNat_eq ?_⟩
      simp only [encode_sequence_toNat, extractLsb'_toNat_eq_div_mod]
      omega
    · exact .inr ⟨by omega, _, rfl⟩
  · exact decode_cases_formatN (by omega) (decode_op_emit h) h.symm
  · exact .inr ⟨h.imp_right .inl, _, decode_op_illegal h⟩

/-- Settles O2: a word that decodes is a legal one. -/
theorem encodeOfDecodeIsIdentity : Obligations.EncodeOfDecodeIsIdentity := by
  intro w i hd
  rcases decode_cases w with ⟨-, j, hj, henc⟩ | ⟨-, e, he⟩
  · rw [hd] at hj
    cases hj
    exact henc
  · rw [hd] at he
    cases he

/-- Settles O3: the two cases of a word exclude each other. -/
theorem decoderRefusesExactlyIllegalWords : Obligations.DecoderRefusesExactlyIllegalWords := by
  intro w
  rcases decode_cases w with ⟨hlegal, i, hi, -⟩ | ⟨hillegal, herr⟩
  · simp [hi, hlegal]
  · exact iff_of_true herr hillegal

/-- An 8-bit two's-complement number by its unsigned value (R75). -/
theorem toInt_eq_sext8 (x : BitVec 8) : x.toInt = if x.toNat < 128 then (x.toNat : Int) else (x.toNat : Int) - 256 := by
  rw [BitVec.toInt_eq_toNat_cond]
  split_ifs <;> omega

/-- Settles O4: the word is the encoding of its operands, so its value shows each of them at its place. -/
theorem decodedOperandsAreTheWordsFields : Obligations.DecodedOperandsAreTheWordsFields := by
  constructor
  · intro w power mode fan dir temp hd
    have hval := encode_encode_toNat power mode fan dir temp
    rw [encodeOfDecodeIsIdentity w _ hd] at hval
    have htemp : w.toNat / 2 ^ 16 % 256 = temp.toNat := by omega
    rw [htemp, tempOf, toInt_eq_sext8]
    exact ⟨by omega, by omega, by omega, by omega, rfl⟩
  · intro w rep hd
    have hval := encode_sequence_toNat rep
    rw [encodeOfDecodeIsIdentity w _ hd] at hval
    have hrep : w.toNat / 2 ^ 16 % 256 = rep.toNat := by omega
    rw [hrep, repOf, toInt_eq_sext8]

/-- Settles O5: each legal word is written as the encoding of its command; the others fail at a reserved bit or at the
opcode. -/
theorem workedWordsDecodeAsTheSpecSays : Obligations.WorkedWordsDecodeAsTheSpecSays :=
  ⟨decode_encode (.encode 1#2 0#3 1#3 0#3 24#8), decode_encode (.sequence 1#8), decode_encode (.sequence 255#8),
    decode_encode .checksum, decode_encode .translate, decode_encode .emit, by decide, by decide, by decide⟩

end Sys2Proof.Machine
end

section
/-! The command port (R78): what an accepted word does, and which steps take a word off the port. -/

namespace Sys2Proof.Machine

theorem acceptWord_of_ok {w : Word} {i : Instr} (h : decode w = .ok i) (s : State) : acceptWord w s = exec i s := by
  simp only [acceptWord, h]

/-- An illegal word is `Reject(ILLEGAL)` (R77). -/
theorem acceptWord_of_illegal {w : Word} (h : IllegalWord w) (s : State) : acceptWord w s = .next (s.raise .illegal) := by
  obtain ⟨e, he⟩ := (decoderRefusesExactlyIllegalWords w).mpr h
  simp only [acceptWord, he, reject]

theorem accepts_withFetchWord (s : State) (n w : Nat) : (s.withFetchWord n w).Accepts (tableWord n w) s.port := ⟨rfl, rfl, rfl⟩

theorem decode_tableWord {n w : Nat} {i : Instr} (h : decodeTableWord n w = some i) : decode (tableWord n w) = .ok i := by
  unfold decodeTableWord at h
  split at h
  · split at h
    · next hd => rwa [Option.some.inj h] at hd
    · cases h
  · cases h

/-- Settles O6: a ready port accepts its first word, and `withFetchWord` makes the port ready. -/
theorem stepRunsTheDecodedCommand : Obligations.StepRunsTheDecodedCommand := by
  constructor
  · intro s w ws i hacc hd
    rw [step_accept hacc, acceptWord_of_ok hd]
    rfl
  · intro s n w i hd
    rw [step_accept (accepts_withFetchWord s n w), acceptWord_of_ok (decode_tableWord hd)]
    rfl

/-- Settles O7: the word is accepted, and an illegal word only raises ILLEGAL. -/
theorem illegalWordIsRejectedPrecisely : Obligations.IllegalWordIsRejectedPrecisely := by
  intro s w ws hacc hill
  rw [step_accept hacc, acceptWord_of_illegal hill]
  rfl

/-- No command touches the port: its own word was taken off before it ran (R78). -/
theorem exec_keepsPort {i : Instr} {s t : State} (h : exec i s = .next t) : t.port = s.port := by
  rcases exec_cases h with ⟨_, _, _, _, _, -, rfl⟩ | ⟨-, rfl⟩ | ⟨-, rfl⟩ | ⟨_, -, -, -, rfl⟩ | ⟨-, -, rfl⟩ | ⟨_, -, rfl⟩
  all_goals rfl

/-- No answer touches the port (R207 (d)). -/
theorem takeAnswer_keepsPort (a : Answer) (s : State) : (takeAnswer a s).port = s.port := by
  rcases takeAnswer_cases a s with h | ⟨-, -, h⟩ | ⟨_, -, -, -, h⟩ | ⟨_, -, -, -, -, h⟩ | ⟨_, -, -, -, -, h⟩ | ⟨_, -, -, h⟩
  all_goals
    have hport := congrArg State.port h
    exact hport

/-- A step takes exactly the word it accepts off the port; a step that accepts none asserts reset, is busy, or finds the
port empty (R78). -/
theorem step_port {s t : State} (h : step s = .next t) :
    (∃ w, s.Accepts w t.port) ∨ (t.port = s.port ∧ (s.turnNow.reset = true ∨ s.busy = true ∨ s.port = [])) := by
  rcases step_cases h with ⟨hr, rfl⟩ | ⟨-, hb, rfl⟩ | ⟨a, ⟨hb, -, -⟩, rfl⟩ | ⟨-, -, hp, rfl⟩ |
    ⟨w, ws, hacc, ⟨e, -, rfl⟩ | ⟨i, -, hex⟩⟩
  · exact .inr ⟨rfl, .inl hr⟩
  · exact .inr ⟨rfl, .inr (.inl hb)⟩
  · exact .inr ⟨takeAnswer_keepsPort a _, .inr (.inl hb)⟩
  · exact .inr ⟨rfl, .inr (.inr hp)⟩
  · exact .inl ⟨w, hacc⟩
  · have hport : t.port = ws := exec_keepsPort hex
    exact .inl ⟨w, hport ▸ hacc⟩

/-- Settles O8: a step accepts the first word, or it leaves the port alone for one of three reasons. -/
theorem commandsAreAcceptedOnceAndOnlyWhenReady : Obligations.CommandsAreAcceptedOnceAndOnlyWhenReady := by
  intro s
  obtain ⟨t, hs⟩ := step_total s
  refine ⟨t, hs, ?_⟩
  rcases step_port hs with ⟨w, hb, hr, hp⟩ | ⟨hp, hwhy⟩
  · refine ⟨.inr ⟨by simp [State.cmdReady, hb], w, hp⟩, ?_, ?_, ?_⟩
    · simp [hb]
    · simp [hp]
    · simp [hr]
  · refine ⟨.inl hp, fun _ => hp, fun hready hnoreset => ?_, fun _ => hp⟩
    rcases hwhy with hr | hb | hempty
    · simp [hr] at hnoreset
    · simp [State.cmdReady, hb] at hready
    · rw [hp, hempty, List.tail_nil]

end Sys2Proof.Machine
end

section
/-! The assembler (R79, R80): a program assembles to its lines' words, or to the first check one of its lines fails. -/

namespace Sys2Proof.Machine

/-- The words, if no check failed; else the first failed check. -/
def refuseFirst (failed : List AsmCheck) (ws : List Word) : Except AsmCheck (List Word) :=
  match failed with
  | [] => .ok ws
  | c :: _ => .error c

theorem assembleLine_eq (l : AsmLine) : assembleLine l = refuseFirst l.failed (expandLine l) := rfl

/-- A program fails where its first failing line does. -/
theorem assembleProgram_eq (ls : List AsmLine) :
    assembleProgram ls = refuseFirst (ls.flatMap AsmLine.failed) (ls.flatMap expandLine) := by
  induction ls with
  | nil => rfl
  | cons l ls ih =>
    rw [assembleProgram, assembleLine_eq, ih, List.flatMap_cons, List.flatMap_cons]
    cases l.failed with
    | nil => cases ls.flatMap AsmLine.failed <;> rfl
    | cons c cs => rfl

/-- Settles O60: a pseudo-instruction fails the checks of its expansion, in the same order, and has its words. -/
theorem pseudoInstructionsExpandAsStated : Obligations.PseudoInstructionsExpandAsStated := by
  refine ⟨fun st r => ?_, fun r => ?_, rfl⟩
  all_goals
    rw [assembleLine_eq, assembleProgram_eq]
    simp [AsmLine.failed, expandLine]

/-! The checks as ranges of the codes and numbers written (R79). -/

theorem inRange_power (p : EnumOperand PowerName) : p.inRange 4 = true ↔ powerCode p < 4 := by
  rcases p with (_ | _) | k <;> simp [EnumOperand.inRange, powerCode]

theorem inRange_mode (m : EnumOperand ModeName) : m.inRange 8 = true ↔ modeCode m < 8 := by
  rcases m with (_ | _ | _ | _) | k <;> simp [EnumOperand.inRange, modeCode]

theorem inRange_fan (f : EnumOperand FanName) : f.inRange 8 = true ↔ fanCode f < 8 := by
  rcases f with (_ | _ | _ | _) | k <;> simp [EnumOperand.inRange, fanCode]

theorem inRange_dir (d : EnumOperand DirName) : d.inRange 8 = true ↔ dirCode d < 8 := by
  rcases d with (_ | _ | _ | _ | _ | _ | _) | k <;> simp [EnumOperand.inRange, dirCode]

theorem inRange8_iff (v : Int) : inRange8 v = true ↔ -128 ≤ v ∧ v ≤ 127 := by
  simp [inRange8]

/-- A settings operand list passes exactly when every operand is in its range. -/
theorem settings_failed_eq_nil_iff (st : AsmSettings) : st.failed = [] ↔
    powerCode st.power < 4 ∧ modeCode st.mode < 8 ∧ (-128 ≤ st.temp ∧ st.temp ≤ 127) ∧ fanCode st.fan < 8 ∧
      dirCode st.dir < 8 := by
  simp [AsmSettings.failed, inRange_power, inRange_mode, inRange_fan, inRange_dir, inRange8_iff, and_assoc]

theorem repFailed_of_inRange {r : Int} (h : -128 ≤ r ∧ r ≤ 127) : repFailed r = [] := if_pos ((inRange8_iff r).mpr h)

theorem repFailed_of_not_inRange {r : Int} (h : ¬(-128 ≤ r ∧ r ≤ 127)) : repFailed r = [.repRange] :=
  if_neg fun hin => h ((inRange8_iff r).mp hin)

theorem toNat_ofNat_of_lt {n k : Nat} (h : k < 2 ^ n) : (BitVec.ofNat n k).toNat = k := by
  rw [BitVec.toNat_ofNat, Nat.mod_eq_of_lt h]

theorem toInt_ofInt8 {v : Int} (h : -128 ≤ v ∧ v ≤ 127) : (BitVec.ofInt 8 v).toInt = v := by
  rw [BitVec.toInt_ofInt, Int.bmod_eq_of_le] <;> omega

/-! A line by the checks its operands pass or fail. -/

theorem assembleLine_of_passed {l : AsmLine} (h : l.failed = []) : assembleLine l = .ok (expandLine l) := by
  rw [assembleLine_eq, h, refuseFirst]

theorem assembleLine_of_failed {l : AsmLine} {c : AsmCheck} {cs : List AsmCheck} (h : l.failed = c :: cs) :
    assembleLine l = .error c := by
  rw [assembleLine_eq, h, refuseFirst]

/-- A settings list out of range is refused by the same check in an ENCODE line and in every SEND line (R79, R80). -/
theorem assembleLine_settings_refused {st : AsmSettings} (h : st.failed ≠ []) :
    ∃ c, assembleLine (.encode st) = .error c ∧ ∀ r : Int, assembleLine (.send st r) = .error c := by
  obtain ⟨c, cs, hc⟩ := List.exists_cons_of_ne_nil h
  refine ⟨c, assembleLine_of_failed hc, fun r => ?_⟩
  have hsend : AsmLine.failed (.send st r) = c :: (cs ++ repFailed r) := by
    rw [AsmLine.failed, hc, List.cons_append]
  exact assembleLine_of_failed hsend

/-- A SEND line is refused for its repeat count, if not for its settings. -/
theorem assembleLine_send_refused {r : Int} (h : ¬(-128 ≤ r ∧ r ≤ 127)) (st : AsmSettings) :
    ∃ c, assembleLine (.send st r) = .error c := by
  by_cases hst : st.failed = []
  · refine ⟨.repRange, assembleLine_of_failed (cs := []) ?_⟩
    rw [AsmLine.failed, hst, List.nil_append, repFailed_of_not_inRange h]
  · obtain ⟨c, -, hc⟩ := assembleLine_settings_refused hst
    exact ⟨c, hc r⟩

/-- An ENCODE line in range gives one word that decodes to its operands. -/
theorem assembleLine_encode_decodes {st : AsmSettings} (h : st.failed = []) :
    ∃ w power mode fan dir temp, assembleLine (.encode st) = .ok [w] ∧
      decode w = .ok (.encode power mode fan dir temp) ∧ power.toNat = powerCode st.power ∧ mode.toNat = modeCode st.mode ∧
      fan.toNat = fanCode st.fan ∧ dir.toNat = dirCode st.dir ∧ tempOf temp = st.temp := by
  obtain ⟨hpower, hmode, htemp, hfan, hdir⟩ := (settings_failed_eq_nil_iff st).mp h
  exact ⟨_, _, _, _, _, _, assembleLine_of_passed h, decode_encode _, toNat_ofNat_of_lt hpower,
    toNat_ofNat_of_lt hmode, toNat_ofNat_of_lt hfan, toNat_ofNat_of_lt hdir, toInt_ofInt8 htemp⟩

/-- Settles O59: the tables by name, a line in range through `decode_encode`, a line out of range by its failed check. -/
theorem assembledLinesDecodeToTheirOperands : Obligations.AssembledLinesDecodeToTheirOperands := by
  refine ⟨⟨rfl, rfl, fun _ => rfl⟩, ⟨rfl, rfl, rfl, rfl, fun _ => rfl⟩, ⟨rfl, rfl, rfl, rfl, fun _ => rfl⟩,
    ⟨rfl, rfl, rfl, rfl, rfl, rfl, rfl, fun _ => rfl⟩, ?encode, ?sequence, ?word, ?operandless, ?repRefused, ?settingsRefused,
    ?wordRefused⟩
  case encode =>
    intro st hpower hmode hfan hdir hlow hhigh
    exact assembleLine_encode_decodes ((settings_failed_eq_nil_iff st).mpr ⟨hpower, hmode, ⟨hlow, hhigh⟩, hfan, hdir⟩)
  case sequence =>
    intro r hlow hhigh
    exact ⟨_, _, assembleLine_of_passed (repFailed_of_inRange ⟨hlow, hhigh⟩), decode_encode _, toInt_ofInt8 ⟨hlow, hhigh⟩⟩
  case word =>
    intro n hn
    exact ⟨_, assembleLine_of_passed (if_pos hn), toNat_ofNat_of_lt hn⟩
  case operandless =>
    exact ⟨⟨_, rfl, decode_encode .checksum⟩, ⟨_, rfl, decode_encode .translate⟩, _, rfl, decode_encode .emit⟩
  case repRefused =>
    intro r hr
    have hout : ¬(-128 ≤ r ∧ r ≤ 127) := by omega
    exact ⟨assembleLine_of_failed (repFailed_of_not_inRange hout), assembleLine_of_failed (repFailed_of_not_inRange hout),
      assembleLine_send_refused hout⟩
  case settingsRefused =>
    intro st hout
    refine assembleLine_settings_refused fun hnil => ?_
    obtain ⟨hpower, hmode, htemp, hfan, hdir⟩ := (settings_failed_eq_nil_iff st).mp hnil
    omega
  case wordRefused =>
    intro n hn
    exact assembleLine_of_failed (cs := []) (if_neg (by omega))

end Sys2Proof.Machine
end

section
/-! The Field Encoder (40_field_encoder.md): the symbols of the Frame ENCODE builds, field by field, and its other effects. -/

namespace Sys2Proof.Machine

/-! The six fields at once: the pattern each gets, its room in its byte, and what the built Frame shows there. -/

/-- The pattern ENCODE writes into a field (R104 to R109). -/
def settingsPattern (power : BitVec 2) (mode fan dir : BitVec 3) (temp : BitVec 8) : Field → Pattern
  | .power => powerPat power
  | .modeA => modeAPat mode
  | .temp  => tempPat (tempOf temp)
  | .modeB => modeBPat mode
  | .fan   => fanPat fan
  | .dir   => dirPat dir

theorem settingsPattern_length (power : BitVec 2) (mode fan dir : BitVec 3) (temp : BitVec 8) (f : Field) :
    (settingsPattern power mode fan dir temp f).length = widthOf f := by
  cases f
  case power => exact powerPat_length power
  case modeA => exact modeAPat_length mode
  case temp => exact tempPat_length (tempOf temp)
  case modeB => exact modeBPat_length mode
  case fan => exact fanPat_length fan
  case dir => exact dirPat_length dir

/-- Check `fm_fits`, field by field (R25). -/
theorem field_fits (c : Cfg) (f : Field) : offOf c.params.fieldMap f + widthOf f ≤ 8 := by
  obtain ⟨hpower, hmodeA, htemp, hmodeB, hfan, hdir, -⟩ := c.checks
  cases f
  case power => exact hpower
  case modeA => exact hmodeA
  case temp => exact htemp
  case modeB => exact hmodeB
  case fan => exact hfan
  case dir => exact hdir

/-- Check `fm_disjoint9` (R25): no symbol of byte 9 lies in both of its fields. -/
theorem fan_dir_disjoint (c : Cfg) (k : Nat) :
    ¬((c.params.fieldMap.fanOff ≤ k ∧ k < c.params.fieldMap.fanOff + 2) ∧
      (c.params.fieldMap.dirOff ≤ k ∧ k < c.params.fieldMap.dirOff + 3)) := by
  obtain ⟨-, hdisjoint, -⟩ := c.params.wf_iff.mp c.wf
  exact c.params.fieldMap.disjoint9_iff.mp hdisjoint k

section
variable (power : BitVec 2) (mode fan dir : BitVec 3) (temp : BitVec 8)

/-- Filling the checksum leaves bytes 0 to 16 as they were packed. -/
theorem encodedFrame_getElem (p : Params) {b : Nat} (hb : b < 17) :
    (encodedFrame p power mode fan dir temp)[b] = (packedFrame p power mode fan dir temp)[b] := by
  rw [encodedFrame, fillChecksum_getElem, if_neg (by omega)]

/-- Every field of the built Frame shows its pattern; FAN_F keeps its own though DIR_F is written after it (R25). -/
theorem symbol_encodedFrame_field (c : Cfg) (f : Field) {j : Nat} (hj : j < widthOf f) :
    symbol (encodedFrame c.params power mode fan dir temp)[(byteOf f).val] (offOf c.params.fieldMap f + j) =
      (settingsPattern power mode fan dir temp f).getD j false := by
  have hlen := settingsPattern_length power mode fan dir temp f
  have hfits := field_fits c f
  have hbyte : (byteOf f).val < 17 := by cases f <;> decide
  have hwritten : ∀ x : Byte, symbol (putSymbols (offOf c.params.fieldMap f) (settingsPattern power mode fan dir temp f) x)
      (offOf c.params.fieldMap f + j) = (settingsPattern power mode fan dir temp f).getD j false :=
    fun x => symbol_putSymbols_in _ _ x (by omega) j (by omega)
  rw [encodedFrame_getElem power mode fan dir temp c.params hbyte, packedFrame_getElem]
  cases f
  case fan =>
    have hlenDir := dirPat_length dir
    have hfitsDir : c.params.fieldMap.dirOff + 3 ≤ 8 := field_fits c .dir
    have hfan : j < 2 := hj
    have hapart := fan_dir_disjoint c (c.params.fieldMap.fanOff + j)
    refine (symbol_putSymbols_out (dirPat dir) c.params.fieldMap.dirOff _ (by omega) (c.params.fieldMap.fanOff + j) ?_).trans
      (hwritten _)
    omega
  all_goals exact hwritten _

/-- A symbol of bytes 0 to 16 in none of the fields is the template's (R103). -/
theorem symbol_encodedFrame_outside (c : Cfg) {b k : Nat} (hb : b < 17)
    (hout : ∀ f : Field, ¬((byteOf f).val = b ∧ offOf c.params.fieldMap f ≤ k ∧ k < offOf c.params.fieldMap f + widthOf f)) :
    symbol (encodedFrame c.params power mode fan dir temp)[b] k = symbol c.params.template[b] k := by
  have hwrite : ∀ (f : Field) (x : Byte), (byteOf f).val = b →
      symbol (putSymbols (offOf c.params.fieldMap f) (settingsPattern power mode fan dir temp f) x) k = symbol x k := by
    intro f x hf
    have hlen := settingsPattern_length power mode fan dir temp f
    have hfits := field_fits c f
    have hoff := hout f
    exact symbol_putSymbols_out _ _ _ (by omega) k (by omega)
  rw [encodedFrame_getElem power mode fan dir temp c.params hb, packedFrame_getElem]
  split_ifs with h5 h6 h7 h8 h9
  · exact hwrite .power _ h5.symm
  · exact hwrite .modeA _ h6.symm
  · exact hwrite .temp _ h7.symm
  · exact hwrite .modeB _ h8.symm
  · exact (hwrite .dir _ h9.symm).trans (hwrite .fan _ h9.symm)
  · rfl

end

/-- Operands with the same patterns give the same Frame. -/
theorem encodedFrame_congr (p : Params) {power power' : BitVec 2} {mode mode' fan fan' dir dir' : BitVec 3}
    {temp temp' : BitVec 8}
    (h : ∀ f, settingsPattern power mode fan dir temp f = settingsPattern power' mode' fan' dir' temp' f) :
    encodedFrame p power mode fan dir temp = encodedFrame p power' mode' fan' dir' temp' := by
  have hpower : powerPat power = powerPat power' := h .power
  have hmodeA : modeAPat mode = modeAPat mode' := h .modeA
  have htemp : tempPat (tempOf temp) = tempPat (tempOf temp') := h .temp
  have hmodeB : modeBPat mode = modeBPat mode' := h .modeB
  have hfan : fanPat fan = fanPat fan' := h .fan
  have hdir : dirPat dir = dirPat dir' := h .dir
  simp only [encodedFrame, packedFrame, hpower, hmodeA, htemp, hmodeB, hfan, hdir]

/-! The pattern tables: symbol by symbol, and the operands that share a row. -/

theorem tempPat_inRange {t : Int} (h : 16 ≤ t ∧ t ≤ 31) {j : Nat} (hj : j < 4) :
    (tempPat t).getD j false = decide ((t - 16).toNat / 2 ^ (3 - j) % 2 = 1) := by
  rw [← Nat.testBit_eq_decide_div_mod_eq, tempPat, if_pos h]
  match j, hj with
  | 0, _ => rfl
  | 1, _ => rfl
  | 2, _ => rfl
  | 3, _ => rfl

theorem tempPat_outOfRange {t : Int} (h : ¬(16 ≤ t ∧ t ≤ 31)) : tempPat t = [false, true, true, false] := if_neg h

/-- 22 stands 6 above 16, and 6 is the fallback pattern: R112 (b). -/
theorem tempPat_fallback (t : Int) (h : t = 22 ∨ t < 16 ∨ 31 < t) : tempPat t = [false, true, true, false] := by
  rcases h with rfl | hout
  · decide
  · exact tempPat_outOfRange (by omega)

theorem powerPat_notOn : ∀ power : BitVec 2, power.toNat ≠ 1 → powerPat power = [false] := by decide

theorem modeAPat_other : ∀ mode : BitVec 3, 2 ≤ mode.toNat → modeAPat mode = [true, true] := by decide

theorem modeBPat_other : ∀ mode : BitVec 3, 2 ≤ mode.toNat → modeBPat mode = [true, true] := by decide

theorem fanPat_auto : ∀ fan : BitVec 3, fan.toNat = 0 ∨ 4 ≤ fan.toNat → fanPat fan = [false, false] := by decide

theorem dirPat_auto : ∀ dir : BitVec 3, dir.toNat = 0 ∨ dir.toNat = 7 → dirPat dir = [false, false, false] := by decide

/-- Two operands that are equal, or are both of a class with one pattern, have the same pattern. -/
theorem pattern_eq_of_class {α : Type} {pat : α → Pattern} {Class : α → Prop} {row : Pattern}
    (hrow : ∀ x, Class x → pat x = row) {x y : α} (h : x = y ∨ (Class x ∧ Class y)) : pat x = pat y := by
  rcases h with rfl | ⟨hx, hy⟩
  · rfl
  · rw [hrow x hx, hrow y hy]

/-! What ENCODE writes into each field (R104 to R109). -/

/-- Settles O15: POWER_F shows the power pattern. -/
theorem encodePlacesPower : Obligations.EncodePlacesPower := by
  intro s power mode fan dir temp
  have htable : ∀ x : BitVec 2, (powerPat x).getD 0 false = decide (x.toNat = 1) := by decide
  exact ⟨_, rfl, (symbol_encodedFrame_field power mode fan dir temp s.cfg .power (by decide : 0 < 1)).trans (htable power)⟩

/-- Settles O16: MODE_A_F and MODE_B_F each show the pattern of a table of their own. -/
theorem encodePlacesBothModeCopies : Obligations.EncodePlacesBothModeCopies := by
  intro s power mode fan dir temp
  have htableA : ∀ x : BitVec 3, ((modeAPat x).getD 0 false, (modeAPat x).getD 1 false) =
      if x.toNat = 0 then (true, false) else if x.toNat = 1 then (false, true) else (true, true) := by decide
  have htableB : ∀ x : BitVec 3, ((modeBPat x).getD 0 false, (modeBPat x).getD 1 false) =
      if x.toNat = 0 then (false, false) else if x.toNat = 1 then (true, false) else (true, true) := by decide
  have hshow := symbol_encodedFrame_field power mode fan dir temp s.cfg
  refine ⟨_, rfl, ?modeA, ?modeB⟩
  case modeA => exact (congrArg₂ Prod.mk (hshow .modeA (by decide : 0 < 2)) (hshow .modeA (by decide : 1 < 2))).trans (htableA mode)
  case modeB => exact (congrArg₂ Prod.mk (hshow .modeB (by decide : 0 < 2)) (hshow .modeB (by decide : 1 < 2))).trans (htableB mode)

/-- Settles O17: TEMP_F shows the temperature pattern, in range and out of range. -/
theorem encodePlacesTemperature : Obligations.EncodePlacesTemperature := by
  intro s power mode fan dir temp
  refine ⟨_, rfl, fun j hj => (symbol_encodedFrame_field power mode fan dir temp s.cfg .temp hj).trans ?_⟩
  show (tempPat temp.toInt).getD j false = _
  split
  · next hin => exact tempPat_inRange hin hj
  · next hout =>
    have hfallback : ∀ i < 4, [false, true, true, false].getD i false = decide (i = 1 ∨ i = 2) := by decide
    rw [tempPat_outOfRange hout, hfallback j hj]

/-- Settles O18: FAN_F shows the fan pattern. -/
theorem encodePlacesFanSpeed : Obligations.EncodePlacesFanSpeed := by
  intro s power mode fan dir temp
  have htable : ∀ x : BitVec 3, ((fanPat x).getD 0 false, (fanPat x).getD 1 false) =
      if x.toNat = 1 then (true, false) else if x.toNat = 2 then (false, true)
      else if x.toNat = 3 then (true, true) else (false, false) := by decide
  have hshow (j : Nat) (hj : j < 2) := symbol_encodedFrame_field power mode fan dir temp s.cfg .fan hj
  exact ⟨_, rfl, (congrArg₂ Prod.mk (hshow 0 (by decide)) (hshow 1 (by decide))).trans (htable fan)⟩

/-- Settles O19: DIR_F shows the direction pattern, and check `fm_disjoint9` keeps it apart from FAN_F. -/
theorem encodePlacesFanDirection : Obligations.EncodePlacesFanDirection := by
  intro s power mode fan dir temp
  have htable : ∀ x : BitVec 3, ((dirPat x).getD 0 false, (dirPat x).getD 1 false, (dirPat x).getD 2 false) =
      if x.toNat = 1 then (true, false, false) else if x.toNat = 2 then (false, true, false)
      else if x.toNat = 3 then (true, true, false) else if x.toNat = 4 then (false, false, true)
      else if x.toNat = 5 then (false, true, true) else if x.toNat = 6 then (true, true, true)
      else (false, false, false) := by decide
  have hshow (j : Nat) (hj : j < 3) := symbol_encodedFrame_field power mode fan dir temp s.cfg .dir hj
  refine ⟨_, rfl, ?_, fan_dir_disjoint s.cfg⟩
  exact (congrArg₂ Prod.mk (hshow 0 (by decide))
    (congrArg₂ Prod.mk (hshow 1 (by decide)) (hshow 2 (by decide)))).trans (htable dir)

/-! What else ENCODE writes, and what it depends on. -/

/-- Settles O20: a symbol in no field is not written. -/
theorem encodeKeepsTheTemplateOutsideTheFields : Obligations.EncodeKeepsTheTemplateOutsideTheFields := by
  intro s power mode fan dir temp
  exact ⟨_, rfl, fun _ _ hb _ hout => symbol_encodedFrame_outside power mode fan dir temp s.cfg hb hout⟩

/-- CSUM takes the number of byte 17 (R133). -/
theorem toNat_sym8_checksum17 (fr : Frame) : (sym8 (checksum17 fr)).toNat = num (fillChecksum fr)[17] := by
  rw [← num_eq_toNat, num_sym8_of_lt _ (checksum17_lt fr), num_fillChecksum_17]

/-- Byte 17 of a filled Frame is the sum over the filled Frame's own other bytes (R131). -/
theorem num_fillChecksum_17_eq_sum (fr : Frame) :
    num (fillChecksum fr)[17] = (∑ b : Fin 17, num (fillChecksum fr)[b.val]) % 256 := by
  rw [num_fillChecksum_17, ← checksum17_fillChecksum, checksum17, sum17_eq]

/-- Settles O21: the Frame and CSUM are filled from the packed Frame, and filling changes no byte of the sum. -/
theorem encodeFillsTheChecksumInTheSameStep : Obligations.EncodeFillsTheChecksumInTheSameStep := by
  intro s power mode fan dir temp
  exact ⟨_, rfl, num_fillChecksum_17_eq_sum _, toNat_sym8_checksum17 _⟩

/-- Settles O22: the SETTINGS mask clears the opcode; every other register named is written with a constant or not at all. -/
theorem encodeSetsSettingsValidBitsAndErrAndKeepsTheRest :
    Obligations.EncodeSetsSettingsValidBitsAndErrAndKeepsTheRest := by
  intro s power mode fan dir temp
  exact ⟨_, rfl, settings_toNat power mode fan dir temp, rfl, rfl, rfl, rfl, rfl, rfl, rfl, rfl, rfl, rfl, rfl, rfl, rfl, rfl,
    rfl, rfl, rfl⟩

/-- Settles O25: equal patterns give equal Frames, and each class of an operand has one pattern. -/
theorem settingsTheReceiverCannotTellApart : Obligations.SettingsTheReceiverCannotTellApart := by
  intro p power power' mode mode' fan fan' dir dir' temp temp' hpower hmode hfan hdir htemp
  refine encodedFrame_congr p fun f => ?_
  cases f
  case power => exact pattern_eq_of_class powerPat_notOn hpower
  case modeA => exact pattern_eq_of_class modeAPat_other hmode
  case temp => exact pattern_eq_of_class (fun x => tempPat_fallback (tempOf x)) htemp
  case modeB => exact pattern_eq_of_class modeBPat_other hmode
  case fan => exact pattern_eq_of_class fanPat_auto hfan
  case dir => exact pattern_eq_of_class dirPat_auto hdir

/-- Settles O24: FRAME, CSUM and SETTINGS are functions of the operands and CFG, and DATA one of FRAME and CFG. -/
theorem encodeDependsOnlyOnTheWordAndCfg : Obligations.EncodeDependsOnlyOnTheWordAndCfg := by
  intro s s' power mode fan dir temp hcfg
  refine ⟨_, _, rfl, rfl, ?frame, ?csum, rfl, _, _, rfl, rfl, ?data⟩
  all_goals rw [hcfg]

end Sys2Proof.Machine
end

section
/-! Proofs of 41_checksum.md: what CHECKSUM writes, what it leaves alone, and that in reach of reset it changes neither
FRAME nor CSUM (R130 to R133). -/

namespace Sys2Proof.Machine

/-- `sym8` keeps eight bits, so it takes the sum with or without the reduction modulo 256 (R131). -/
theorem sym8_checksum17 (fr : Frame) : sym8 (checksum17 fr) = sym8 (sum17 fr) := by
  rw [← sym8_num (sym8 (sum17 fr)), num_sym8, checksum17]

/-- Symbol `k` of the filled byte 17 is bit `k` of the sum (R131). -/
theorem symbol_fillChecksum_17 (fr : Frame) {k : Nat} (hk : k < 8) :
    symbol (fillChecksum fr)[17] k = decide (sum17 fr / 2 ^ k % 2 = 1) := by
  rw [fillChecksum_getElem, if_pos rfl, sym8_checksum17, symbol_sym8_eq_decide _ _ hk]

theorem fillChecksum_getElem_of_ne {fr : Frame} {b : Nat} (hb : b < 18) (hne : b ≠ 17) : (fillChecksum fr)[b] = fr[b] := by
  rw [fillChecksum_getElem, if_neg hne]

/-- Settles O26: byte 17 and CSUM are filled from the sum of the other bytes, which no filling touches. -/
theorem checksumRecomputesByte17 : Obligations.ChecksumRecomputesByte17 := by
  intro s
  refine ⟨_, rfl, ?num, toNat_sym8_checksum17 s.frame, fun k hk => ?symbol,
    fun b hb => fillChecksum_getElem_of_ne (by omega) (by omega), rfl⟩
  case num => rw [num_fillChecksum_17, checksum17, sum17_eq]
  case symbol => rw [symbol_fillChecksum_17 s.frame hk, sum17_eq]

/-- Where CSUM holds byte 17's number, the host reads one word at both addresses (R133). -/
theorem hostRead_csum_eq_byte17 {s : State} (h : s.csum.toNat = num s.frame[17]) : hostRead 0x001#12 s = hostRead 0x021#12 s := by
  have hcsum : (hostRead 0x001#12 s).toNat = s.csum.toNat := BitVec.toNat_setWidth_of_le (by decide : 8 ≤ 32)
  have hbyte : (hostRead 0x021#12 s).toNat = num s.frame[17] := hostRead_frame_toNat (by decide : 17 < 18) rfl s
  exact BitVec.eq_of_toNat_eq (by rw [hcsum, hbyte, h])

/-- Settles O27: CHECKSUM writes byte 17, CSUM and ERR, and CSUM takes the number a host read of byte 17 returns. -/
theorem checksumLeavesOtherHostWordsAlone : Obligations.ChecksumLeavesOtherHostWordsAlone := by
  intro s
  refine ⟨_, rfl, fun a h0 h1 hbyte => ?others, fun k herr => ?status, ?csum⟩
  case others =>
    refine hostRead_congr a (fun _ => ?low) (fun hl hu => ?frame) rfl (fun _ _ => rfl) (fun _ _ => rfl)
    case low =>
      exact readLow_congr _ (absurd · h0) (absurd · h1) (fun _ => rfl) (fun _ => rfl) (fun _ => rfl) (fun _ => rfl)
        (fun _ => rfl) (fun _ => rfl)
    case frame =>
      have hb : a.toNat - 0x010 < 18 := by omega
      rw [vector_getD, vector_getD, dif_pos hb, dif_pos hb]
      exact fillChecksum_getElem_of_ne hb (by omega)
  case status =>
    exact status_getLsbD_congr k rfl rfl rfl (fun _ => rfl) (fun _ => rfl) (fun _ => rfl) fun hl hu => absurd ⟨hl, hu⟩ herr
  case csum =>
    exact hostRead_csum_eq_byte17 (toNat_sym8_checksum17 s.frame)

/-- Where R39 holds CHECKSUM only clears ERR (R132). -/
theorem exec_checksum_of_checksumHolds {s : State} (h : s.ChecksumHolds) :
    exec .checksum s = .next { s with err := .none } := by
  obtain ⟨hframe, hcsum⟩ := checksum_rewrites_same h
  rw [exec, execChecksum, hframe, hcsum]

/-- R39 holds in every state a run from reset reaches. -/
theorem checksumHolds_of_reaches {c : Cfg} {cmds : List Word} {env : List Turn} {s : State}
    (h : Reaches { State.afterReset c with port := cmds, turns := env } s) : s.ChecksumHolds := by
  obtain ⟨hbyte, hcsum, -⟩ := reachableStatesMeetTheSpecsInvariants c cmds env s h
  exact ⟨by rw [hbyte, checksum17, sum17_eq], hcsum⟩

/-- Settles O28: where R39 holds CHECKSUM writes what FRAME and CSUM hold, and R39 holds in reach of reset. -/
theorem checksumChangesNoFrameWhoseChecksumHolds : Obligations.ChecksumChangesNoFrameWhoseChecksumHolds :=
  ⟨fun _ h => exec_checksum_of_checksumHolds h, fun _ _ _ _ h => exec_checksum_of_checksumHolds (checksumHolds_of_reaches h)⟩

end Sys2Proof.Machine
end

section
/-! Proofs of 42_pulse_translator.md: the pairs TRANSLATE writes, that they determine the Frame, and what their
durations add up to (R141 to R143). -/

namespace Sys2Proof.Machine

/-- The gap of symbol `k` of byte `b` stands at the odd entry of flat bit `8b + k` (R141). -/
theorem translateFrame_gap (tm : Timing) (fr : Frame) {b k : Nat} (hb : b < 18) (hk : k < 8) :
    (translateFrame tm fr)[2 * (8 * b + k) + 1] = gapOf tm (symbol fr[b] k) := by
  have hdiv : (8 * b + k) / 8 = b := by omega
  have hmod : (8 * b + k) % 8 = k := by omega
  simp only [translateFrame_odd tm fr (8 * b + k) (by omega), hdiv, hmod]

/-- Settles O30: the even entries are BIT_ON, the odd ones the gap of their own symbol. -/
theorem translateBuildsTheDataSegment : Obligations.TranslateBuildsTheDataSegment := by
  intro s
  refine ⟨_, rfl, fun b k hb hk => ⟨?on, ?off⟩, rfl⟩
  case on => exact translateFrame_even _ _ (8 * b + k) (by omega)
  case off => exact translateFrame_gap _ _ hb hk

/-- Under `tm_one_gt_zero` the two gaps differ, so a gap tells its symbol (R143 (d)). -/
theorem gapOf_injective {tm : Timing} (h : tm.oneGtZero = true) : Function.Injective (gapOf tm) := by
  have hne : tm.zeroOff ≠ tm.oneOff := fun heq =>
    ((Timing.oneGtZero_iff tm).mp h).ne (congrArg BitVec.toNat heq)
  rintro (_ | _) (_ | _) hgap
  case false.false | true.true => rfl
  case false.true => exact absurd hgap hne
  case true.false => exact absurd hgap.symm hne

/-- Under `tm_one_gt_zero` a Frame can be recovered from its Data segment, symbol by symbol (R143 (d)). -/
theorem translateFrame_injective {tm : Timing} (h : tm.oneGtZero = true) : Function.Injective (translateFrame tm) := by
  intro fr fr' heq
  refine Vector.ext fun b hb => symbol_ext _ _ fun k hk => gapOf_injective h ?_
  rw [← translateFrame_gap tm fr hb hk, ← translateFrame_gap tm fr' hb hk, heq]

/-- Settles O32: a configuration that passes its checks has `tm_one_gt_zero`. -/
theorem dataSegmentDeterminesTheFrame : Obligations.DataSegmentDeterminesTheFrame := by
  intro c fr fr' heq
  obtain ⟨-, -, hone, -⟩ := (Params.wf_iff c.params).mp c.wf
  exact translateFrame_injective hone heq

/-- The symbol at flat bit index `i`, numbered by `Nat` (R12): 0 past the last. -/
def symbolAt (fr : Frame) (i : Nat) : Bool := symbol (fr.getD (i / 8) 0#8) (i % 8)

theorem flatSymbol_eq_symbolAt (fr : Frame) (i : Fin 144) : flatSymbol fr i = symbolAt fr i := by
  have hi : i.val / 8 < 18 := by omega
  rw [flatSymbol, symbolAt, vector_getD, dif_pos hi]

/-- The Data segment is the pairs of the 144 flat bits, one after the other in transmission order (R141). -/
theorem translateFrame_toList (tm : Timing) (fr : Frame) :
    (translateFrame tm fr).toList = ((List.range 144).map fun i => [tm.bitOn, gapOf tm (symbolAt fr i)]).flatten := by
  rw [translateFrame, Vector.toList_ofFn, List.ofFn_mul' (m := 2) (n := 144), ← List.map_coe_finRange_eq_range,
    List.map_map, ← List.ofFn_eq_map]
  refine congrArg List.flatten (congrArg List.ofFn (funext fun i => ?_))
  have hdiv : (2 * i.val + 1) / 2 = i.val := by omega
  simp [hdiv, flatSymbol_eq_symbolAt]

/-- Gaps add up to ONE_OFF for each symbol 1 and ZERO_OFF for each symbol 0. -/
theorem sum_gapOf {α : Type} (tm : Timing) (sym : α → Bool) (l : List α) :
    (l.map fun i => (gapOf tm (sym i)).toNat).sum =
      (l.filter sym).length * tm.oneOff.toNat + (l.length - (l.filter sym).length) * tm.zeroOff.toNat := by
  have hzeros : l.length - (l.filter sym).length = (l.filter fun i => !sym i).length := by
    rw [l.length_eq_length_filter_add sym, Nat.add_sub_cancel_left]
  simp [hzeros, gapOf, apply_ite BitVec.toNat, List.sum_map_ite]

/-- Settles O33: each pair adds BIT_ON and its gap, and the gaps are summed over the symbols 1 and the symbols 0. -/
theorem dataSegmentDurationSum : Obligations.DataSegmentDurationSum := by
  rintro tm fr n1 rfl
  calc ((translateFrame tm fr).toList.map BitVec.toNat).sum
    _ = ((List.range 144).map fun i => tm.bitOn.toNat + (gapOf tm (symbolAt fr i)).toNat).sum := by
      simp [translateFrame_toList, List.sum_flatten, Function.comp_def]
    _ = 144 * tm.bitOn.toNat + ((List.range 144).map fun i => (gapOf tm (symbolAt fr i)).toNat).sum := by
      rw [List.sum_map_add, List.map_const', List.sum_replicate, List.length_range, smul_eq_mul]
    _ = _ := by
      rw [sum_gapOf, List.length_range, ← add_assoc]
      rfl

end Sys2Proof.Machine
end

section
/-! Proofs of 43_sequencer.md: what SEQUENCE answers (R150, R151, R158), and the segment list and the schedule as
functions of the repeat count (R152, R153). -/

namespace Sys2Proof.Machine

/-! SEQUENCE, one equation per branch of R150. -/

theorem exec_sequence_of_neg {rep : BitVec 8} (h : rep.toInt < 0) (s : State) :
    exec (.sequence rep) s = .next (s.raise .negRepeat) := if_pos h

theorem exec_sequence_of_dataV_false {rep : BitVec 8} (h : 0 ≤ rep.toInt) {s : State} (hd : s.dataV = false) :
    exec (.sequence rep) s = .next (s.raise .nodata) := (if_neg h.not_gt).trans (if_pos hd)

theorem exec_sequence_of_accepted {rep : BitVec 8} (h : 0 ≤ rep.toInt) {s : State} (hd : s.dataV = true) :
    exec (.sequence rep) s = .next { s with schedR := rep, schedV := true, err := .none } :=
  (if_neg h.not_gt).trans (if_neg (by simp [hd]))

/-- Settles O35: the count's sign is looked at first, and `raise` writes only ERR and ERR_SEEN (R202). -/
theorem sequenceRejectsInFixedPriority : Obligations.SequenceRejectsInFixedPriority :=
  ⟨fun s _ hneg => exec_sequence_of_neg hneg s, fun _ _ hrep hdata => exec_sequence_of_dataV_false hrep hdata⟩

/-- A count that is not negative reads at SCHED_R's address as the integer it stands for (R51, R28). -/
theorem hostRead_schedR_toNat {s : State} (h : 0 ≤ s.schedR.toInt) : ((hostRead 3#12 s).toNat : Int) = s.schedR.toInt := by
  have hread : (hostRead 3#12 s).toNat = s.schedR.toNat := BitVec.toNat_setWidth_of_le (by decide : 8 ≤ 32)
  rw [hread, BitVec.toInt_eq_toNat_of_lt (BitVec.toInt_pos_iff.mp h)]

/-- Settles O34: the accepting branch writes SCHED_R, SCHED_V and ERR, which only the words excepted show. -/
theorem sequenceFixesTheRepeatCount : Obligations.SequenceFixesTheRepeatCount := by
  intro s rep hrep hdata
  obtain ⟨hnseg, hlen⟩ := hostRead_scheduleSizes (s := { s with schedR := rep, schedV := true, err := .none }) rfl hrep
  refine ⟨_, exec_sequence_of_accepted hrep hdata, rfl, rfl, rfl, hostRead_schedR_toNat hrep, hnseg, hlen,
    fun a h0 h3 h4 h5 => ?others⟩
  refine hostRead_congr a (fun _ => ?low) (fun _ _ => rfl) rfl (fun _ _ => rfl) (fun _ _ => rfl)
  exact readLow_congr _ (absurd · h0) (fun _ => rfl) (fun _ => rfl) (absurd · h3) (absurd · h4) (absurd · h5)
    (fun _ => rfl) (fun _ => rfl)

/-! `Segments(r)` by recursion on `r`: one more repetition puts one full round before the list (R152). -/

theorem segments_zero : segments 0 = [.header, .dataSeg, .trailer] := rfl

/-- Only the distance to the last round decides whether a round ends in a SPACER. -/
theorem segmentRound_succ (r i : Nat) : segmentRound (r + 1) (i + 1) = segmentRound r i := by
  simp only [segmentRound, Nat.add_lt_add_iff_right]

theorem segments_succ (r : Nat) : segments (r + 1) = .header :: .dataSeg :: .spacer :: segments r := by
  have hfirst : segmentRound (r + 1) 0 = [.header, .dataSeg, .spacer] := rfl
  rw [segments, List.range_succ_eq_map, List.flatMap_cons, List.flatMap_map, hfirst]
  simp only [Nat.succ_eq_add_one, segmentRound_succ]
  rfl

theorem segments_length (r : Nat) : (segments r).length = 3 * r + 3 := by
  induction r with
  | zero => rfl
  | succ r ih =>
    simp only [segments_succ, List.length_cons, ih]
    omega

theorem segmentAt_succ_add_three (r k : Nat) : segmentAt (r + 1) (k + 3) = segmentAt r k := by
  have hlast : k + 3 = 3 * (r + 1) + 2 ↔ k = 3 * r + 2 := by omega
  simp only [segmentAt, hlast, Nat.add_mod_right]

/-- The loop and the closed form agree on every index (R152): the first round by its three entries, the rest by the
recursion of both. -/
theorem segments_getElem? {r k : Nat} (hk : k < 3 * r + 3) : (segments r)[k]? = some (segmentAt r k) := by
  induction r generalizing k with
  | zero => interval_cases k <;> rfl
  | succ r ih =>
    rw [segments_succ]
    match k with
    | 0 => rfl
    | 1 => rfl
    | 2 => simp [segmentAt]
    | k + 3 =>
      rw [segmentAt_succ_add_three, ← ih (by omega)]
      rfl

/-- Settles O37: the length of the loop's list, and its entries by `segmentAt`. -/
theorem segmentsHaveTheClosedForm : Obligations.SegmentsHaveTheClosedForm :=
  fun r => ⟨segments_length r, fun _ hk => segments_getElem? hk⟩

/-- How often each kind stands in `Segments(r)` (R153). -/
theorem count_segments (kind : SegKind) (r : Nat) : (segments r).count kind =
    match kind with
    | .header | .dataSeg => r + 1
    | .spacer => r
    | .trailer => 1 := by
  induction r with
  | zero => cases kind <;> rfl
  | succ r ih => cases kind <;> simp [segments_succ, ih]

/-- A full round is 2 + 288 + 2 durations, and so is the last: a TRAILER lasts as long as a SPACER (R154). -/
theorem schedule_length (tm : Timing) (data : DataSegment) (r : Nat) : (schedule tm data r).length = 292 * (r + 1) := by
  unfold schedule
  induction r with
  | zero => simp [segments_zero, dur]
  | succ r ih =>
    simp only [segments_succ, List.flatMap_cons, List.length_append, ih, dur, Vector.length_toList, List.length_cons,
      List.length_nil]
    omega

/-- Settles O38: the counts, the two lengths, and what these are for the largest count. -/
theorem scheduleHasTheStatedSizes : Obligations.ScheduleHasTheStatedSizes := by
  intro tm data r
  refine ⟨segments_length r, count_segments .header r, count_segments .dataSeg r, count_segments .spacer r,
    count_segments .trailer r, schedule_length tm data r, fun hr => ?bounds⟩
  rw [segments_length, schedule_length]
  omega

end Sys2Proof.Machine
end

section
/-! Proofs of 44_emitter.md: the step of each emitter answer (R172, R173, R175), and whole EMITs as runs (R178). -/

namespace Sys2Proof.Machine

/-! EMIT's accepting step, one equation per branch of R170. -/

theorem exec_emit_of_schedV_false {s : State} (h : s.schedV = false) : exec .emit s = .next (s.raise .nosched) := if_pos h

theorem exec_emit_of_schedV {s : State} (h : s.schedV = true) : exec .emit s =
    .next (State.request .reset { s with emitDone := false, emitIdx := 0#9, emitPhase := .waitReset }) :=
  if_neg (by simp [h])

/-- Settles O40: without a schedule EMIT only raises NOSCHED (R202). -/
theorem emitWithoutScheduleIsRejected : Obligations.EmitWithoutScheduleIsRejected := fun _ h => exec_emit_of_schedV_false h

/-- Settles O39: of the registers a host reads the accepting step writes STATUS's fields and EMIT_IDX. -/
theorem emitStartsTheTransaction : Obligations.EmitStartsTheTransaction := by
  intro s hv
  refine ⟨_, exec_emit_of_schedV hv, rfl, rfl, rfl, fun a h0 h7 => ?others⟩
  refine hostRead_congr a (fun _ => ?low) (fun _ _ => rfl) rfl (fun _ _ => rfl) (fun _ _ => rfl)
  exact readLow_congr _ (absurd · h0) (fun _ => rfl) (fun _ => rfl) (fun _ => rfl) (fun _ => rfl) (fun _ => rfl)
    (fun _ => rfl) (absurd · h7)

/-! A busy core's step: with no answer it waits on, with the outstanding request's answer it takes it. -/

theorem step_waits {s : State} (hb : s.busy = true) (hr : s.turnNow.reset = false) (hn : s.turnNow.reply = none) :
    step s = .next s.turnTaken := by
  rw [step_busy hr hb, hn]
  rfl

theorem step_answered {s : State} {a : Answer} (h : s.Answered a) : step s = .next (takeAnswer a s.turnTaken) := by
  obtain ⟨hb, hr, rp, hreply, hout, rfl⟩ := h
  rw [step_busy hr hb, hreply]
  exact congrArg _ (if_pos ((outstanding_turnTaken s).trans hout))

/-- The turn played now is one of the list, or past its end the empty turn. -/
theorem turnNow_mem_or_default (s : State) : s.turnNow ∈ s.turns ∨ s.turnNow = {} := by
  cases hts : s.turns with
  | nil => exact .inr (turnNow_nil hts)
  | cons t ts => exact .inl (turnNow_cons hts ▸ List.mem_cons_self)

/-- While nothing arrives a busy core only uses up its turns (R181). -/
theorem run_silent (n : Nat) {s : State} (hb : s.busy = true) (hts : ∀ t ∈ s.turns, t.reset = false ∧ t.reply = none) :
    Sys2Proof.core.run n s = .next { s with turns := s.turns.drop n } := by
  induction n generalizing s with
  | zero => rfl
  | succ n ih =>
    have hnow : s.turnNow.reset = false ∧ s.turnNow.reply = none := by
      rcases turnNow_mem_or_default s with hmem | hnone
      · exact hts _ hmem
      · rw [hnone]
        exact ⟨rfl, rfl⟩
    rw [run_succ n (step_waits hb hnow.1 hnow.2),
      ih ((busy_turnTaken s).trans hb) fun t ht => hts t (List.mem_of_mem_tail ht), State.turnTaken_turns, List.drop_tail]
    rfl

/-- Settles O14: the silent run, and the reset that ends the EMIT with the trace as it was (R231). -/
theorem silentEmitterHangsUntilReset : Obligations.SilentEmitterHangsUntilReset :=
  ⟨fun _ n hb hts => run_silent n hb hts, fun _ _ hr => ⟨_, step_reset hr, rfl, rfl⟩⟩

/-- A busy core accepts no command, and no other step without reset writes the pipeline's registers or the port. -/
theorem step_busy_keeps {s t : State} (hb : s.busy = true) (hr : s.turnNow.reset = false) (hs : step s = .next t) :
    s.PipelineKept t ∧ t.port = s.port := by
  have haccept : ∀ w ws, ¬s.Accepts w ws := fun w ws h => by simp [h.1] at hb
  constructor
  · rcases step_keepsPipeline_or_executes hs hr with hk | ⟨w, ws, -, hacc, -⟩
    · exact hk
    · exact absurd hacc (haccept w ws)
  · rcases step_port hs with ⟨w, hacc⟩ | ⟨hport, -⟩
    · exact absurd hacc (haccept w _)
    · exact hport

/-- Settles O53: the pipeline's registers, then the port. -/
theorem anEmitInProgressLeavesThePipelineAlone : Obligations.AnEmitInProgressLeavesThePipelineAlone := by
  intro s t hb hr hs
  obtain ⟨⟨hsettings, hframe, hcsum, hdata, hschedR, hframeV, hdataV, hschedV, hcfg⟩, hport⟩ := step_busy_keeps hb hr hs
  exact ⟨hsettings, hframe, hcsum, hdata, hschedR, hframeV, hdataV, hschedV, hcfg, hport⟩

/-! The step of each answer in the phase that waits for it, and the branches of R173. -/

theorem step_ack {s : State} (hp : s.emitPhase = .waitReset) (ha : s.Answered .ack) :
    step s = .next (resetAnswered s.turnTaken) := by
  rw [step_answered ha]
  simp only [takeAnswer, State.turnTaken_emitPhase, hp]

theorem step_handle {s : State} {h : Word} (hp : s.emitPhase = .waitStage) (ha : s.Answered (.handle h)) :
    step s = .next (stageAnswered h s.turnTaken) := by
  rw [step_answered ha]
  simp only [takeAnswer, State.turnTaken_emitPhase, hp]

theorem step_status {s : State} {st : Word} (hp : s.emitPhase = .waitTx) (ha : s.Answered (.status st)) :
    step s = .next (transmitAnswered st s.turnTaken) := by
  rw [step_answered ha]
  simp only [takeAnswer, State.turnTaken_emitPhase, hp]

theorem stageAnswered_of_neg {h : Word} (hneg : h.toInt < 0) (s : State) : stageAnswered h s = stageFailed h s := if_pos hneg

theorem stageAnswered_of_more {h : Word} (h0 : 0 ≤ h.toInt) {s : State} (hk : s.emitIdx.toNat + 1 < s.segCount) :
    stageAnswered h s = State.request (.stage (s.payload (s.emitIdx.toNat + 1))) (handleStored h s) :=
  (if_neg h0.not_gt).trans (if_pos hk)

theorem stageAnswered_of_last {h : Word} (h0 : 0 ≤ h.toInt) {s : State} (hk : s.emitIdx.toNat + 1 = s.segCount) :
    stageAnswered h s = State.request (.transmit ((handleStored h s).handles.toList.take s.segCount))
      (State.inPhase .waitTx (handleStored h s)) :=
  (if_neg h0.not_gt).trans (if_neg hk.not_lt)

/-- Settles O42: the branch of a negative answer. -/
theorem stageFailureEndsTheEmit : Obligations.StageFailureEndsTheEmit := by
  intro s h hp ha hneg
  rw [step_handle hp ha, stageAnswered_of_neg hneg]
  rfl

/-- Settles O44: the step looks at the phase and the answer's kind, not at the status. -/
theorem transmitStatusIsStoredUninterpreted : Obligations.TransmitStatusIsStoredUninterpreted :=
  fun _ _ hp ha => step_status hp ha

/-- Segment 0 is a Header for every repeat count: index 0 is never the last (R152, R154). -/
theorem payload_zero (s : State) : s.payload 0 = [s.cfg.params.timing.hdrOn, s.cfg.params.timing.hdrOff] := by
  have hkind : segmentAt s.repeatCount 0 = .header := if_neg (by omega)
  rw [State.payload, hkind, dur]

/-- Settles O41: the core stages segment 0, a Header. -/
theorem resetAnswerStagesTheFirstHeader : Obligations.ResetAnswerStagesTheFirstHeader := by
  intro s hp ha
  rw [step_ack hp ha, ← payload_zero s]
  rfl

/-! The schedule of a state whose SCHED_R is the count `r` (R152, R173). -/

theorem segCount_of_schedR {s : State} {r : Nat} (hr : s.schedR.toInt = r) : s.segCount = 3 * r + 3 := by
  rw [State.segCount, repOf, hr]
  omega

theorem payload_of_schedR {s : State} {r : Nat} (hr : s.schedR.toInt = r) (k : Nat) :
    s.payload k = dur s.cfg.params.timing s.data (segmentAt r k) := by
  rw [State.payload, State.repeatCount, repOf, hr, Int.toNat_natCast]

/-! A stored handle (R173). -/

theorem handles_handleStored_same (h : Word) {s : State} (hk : s.emitIdx.toNat < 384) :
    (handleStored h s).handles[s.emitIdx.toNat]? = some h :=
  Vector.getElem?_setIfInBounds_self_of_lt hk

theorem handles_handleStored_other (h : Word) {s : State} {j : Nat} (hj : j ≠ s.emitIdx.toNat) :
    (handleStored h s).handles[j]? = s.handles[j]? :=
  Vector.getElem?_setIfInBounds_ne hj.symm

/-- Settles O43: the handle is stored in both branches; what is requested depends on whether another segment follows. -/
theorem handleAnswerStoresItAndGoesOn : Obligations.HandleAnswerStoresItAndGoesOn := by
  intro s h k hp ha h0 hr hidx hk
  have hcast : s.schedR.toInt = s.schedR.toInt.toNat := (Int.toNat_of_nonneg hr).symm
  generalize s.schedR.toInt.toNat = r at hcast hk ⊢
  have hcount : s.turnTaken.segCount = 3 * r + 3 := segCount_of_schedR hcast
  have hbound : s.turnTaken.emitIdx.toNat < 384 := (hidx.trans_lt (hcount ▸ hk)).trans_le (segCount_le _)
  subst hidx
  have hnew := handles_handleStored_same h hbound
  have hold : ∀ j, j ≠ s.emitIdx.toNat → (handleStored h s.turnTaken).handles[j]? = s.handles[j]? :=
    fun _ hj => handles_handleStored_other h (s := s.turnTaken) hj
  have hnext := emitIdx_handleStored h hbound
  have hpay : ∀ j, s.turnTaken.payload j = dur s.cfg.params.timing s.data (segmentAt r j) := payload_of_schedR hcast
  have hstaged : ∃ kind, (segments r)[s.emitIdx.toNat]? = some kind ∧
      (handleStored h s.turnTaken).staged = s.staged ++ [(h, dur s.cfg.params.timing s.data kind)] :=
    ⟨_, segments_getElem? hk, by rw [handleStored_staged, hpay]; rfl⟩
  rw [step_handle hp ha]
  rcases (Nat.succ_le_iff.mpr hk).lt_or_eq with hmore | hlast
  · rw [stageAnswered_of_more h0 (hcount ▸ hmore), hpay]
    exact ⟨_, rfl, hnew, hold, hnext, fun _ => ⟨hp, _, segments_getElem? hmore, rfl⟩, fun he => absurd he hmore.ne,
      hstaged, rfl⟩
  · rw [stageAnswered_of_last (s := s.turnTaken) h0 (hlast.trans hcount.symm), hcount]
    exact ⟨_, rfl, hnew, hold, hnext, fun hlt => absurd hlast hlt.ne, fun _ => ⟨rfl, rfl⟩, hstaged, rfl⟩

/-! Whole EMITs. An EMIT's progress is a relation between the state that accepts it and the state it has come to; each
answer moves it on, and a run of answers is an induction over the handles. -/

/-- The EMIT that the next step from `s` accepts has come to `u`: it has issued the requests `rs`, obtained the handles
`hs` and waits in phase `p`; the environment has `ts` still to play. -/
structure State.EmitProgress (s : State) (rs : List Request) (hs : List Word) (p : Phase) (ts : List Turn) (u : State) :
    Prop where
  kept      : s.PipelineKept u
  port      : u.port = s.port.tail
  turns     : u.turns = ts
  trace     : u.trace = s.trace ++ rs
  handles   : u.handles.toList.take hs.length = hs
  emitIdx   : u.emitIdx.toNat = hs.length
  emitPhase : u.emitPhase = p
  emitDone  : u.emitDone = false

theorem State.PipelineKept.trans {s t u : State} (h : s.PipelineKept t) (h' : t.PipelineKept u) : s.PipelineKept u where
  settings := h'.settings.trans h.settings
  frame    := h'.frame.trans h.frame
  csum     := h'.csum.trans h.csum
  data     := h'.data.trans h.data
  schedR   := h'.schedR.trans h.schedR
  frameV   := h'.frameV.trans h.frameV
  dataV    := h'.dataV.trans h.dataV
  schedV   := h'.schedV.trans h.schedV
  cfg      := h'.cfg.trans h.cfg

theorem requestsTo_length (s : State) (k : Nat) : (s.requestsTo k).length = k + 1 := by
  simp [State.requestsTo]

/-- Storing the handle of segment `k` puts it behind the `k` before it. -/
theorem take_handles_handleStored (h : Word) {s : State} (hk : s.emitIdx.toNat < 384) :
    (handleStored h s).handles.toList.take (s.emitIdx.toNat + 1) = s.handles.toList.take s.emitIdx.toNat ++ [h] := by
  rw [List.take_add_one, handleStored_handles, Vector.toList_setIfInBounds, List.take_set_of_le le_rfl,
    List.getElem?_set_self (by rwa [Vector.length_toList]), Option.toList_some]

section
variable {s u : State} {rs : List Request} {hs : List Word} {p : Phase} {ts : List Turn}

/-- The answer to the last request issued is the one the core waits for (R171, log entry 4). -/
theorem State.EmitProgress.answered {n : Nat} {a : Answer}
    (hu : s.EmitProgress rs hs p ({ reply := some ⟨n, a⟩ } :: ts) u) (hp : p ≠ .idle)
    (hn : s.trace.length + rs.length = n + 1) : u.Answered a := by
  have hb : u.busy = true := busy_eq_true.mpr (hu.emitPhase ▸ hp)
  have hnow := turnNow_cons hu.turns
  refine ⟨hb, by rw [hnow], _, by rw [hnow], ?_, rfl⟩
  rw [State.outstanding, if_pos hb, hu.trace, List.length_append, hn, Nat.add_sub_cancel]

theorem State.EmitProgress.keeps_of_step {a : Answer} {v : State} (hu : s.EmitProgress rs hs p ts u) (ha : u.Answered a)
    (hv : step u = .next v) : s.PipelineKept v ∧ v.port = s.port.tail := by
  obtain ⟨hb, hr, -⟩ := ha
  obtain ⟨hkept, hport⟩ := step_busy_keeps hb hr hv
  exact ⟨hu.kept.trans hkept, hport.trans hu.port⟩

theorem State.EmitProgress.payload (hu : s.EmitProgress rs hs p ts u) (k : Nat) : u.payload k = s.payload k :=
  State.payload_congr hu.kept.cfg hu.kept.data hu.kept.schedR k

theorem State.EmitProgress.segCount (hu : s.EmitProgress rs hs p ts u) : u.segCount = s.segCount :=
  State.segCount_congr hu.kept.schedR

/-- The accepting step (R170): `reset` is requested. -/
theorem emitProgress_accepted {ws : List Word} {t : Turn} (hb : s.busy = false) (hv : s.schedV = true)
    (hport : s.port = 5#32 :: ws) (hts : s.turns = t :: ts) (ht : t.reset = false) :
    ∃ u, step s = .next u ∧ s.EmitProgress (s.requestsTo 0) [] .waitReset ts u := by
  have hacc : s.Accepts 5#32 ws := ⟨hb, (congrArg Turn.reset (turnNow_cons hts)).trans ht, hport⟩
  have hv' : (s.turnTaken.withPort ws).schedV = true := hv
  have hdecode : decode 5#32 = .ok .emit := decode_encode .emit
  rw [step_accept hacc, acceptWord_of_ok hdecode, exec_emit_of_schedV hv']
  exact ⟨_, rfl, ⟨rfl, rfl, rfl, rfl, rfl, rfl, rfl, rfl, rfl⟩, congrArg List.tail hport.symm, congrArg List.tail hts, rfl,
    rfl, rfl, rfl, rfl⟩

/-- `reset` acknowledged (R172): segment 0 is requested. -/
theorem State.EmitProgress.ack
    (hu : s.EmitProgress (s.requestsTo 0) [] .waitReset ({ reply := some ⟨s.trace.length, .ack⟩ } :: ts) u) :
    ∃ v, step u = .next v ∧ s.EmitProgress (s.requestsTo 1) [] .waitStage ts v := by
  have ha := hu.answered nofun rfl
  have hstep := step_ack hu.emitPhase ha
  obtain ⟨hkept, hport⟩ := hu.keeps_of_step ha hstep
  refine ⟨_, hstep, hkept, hport, congrArg List.tail hu.turns, ?trace, rfl, hu.emitIdx, rfl, hu.emitDone⟩
  have hpay : u.turnTaken.payload 0 = s.payload 0 := hu.payload 0
  rw [resetAnswered_trace, State.turnTaken_trace, hu.trace, hpay, List.append_assoc, requestsTo_succ]

/-! A `stage` answered while EMIT_IDX is inside the schedule (R173). -/

section
variable {h : Word}
  (hu : s.EmitProgress (s.requestsTo (hs.length + 1)) hs .waitStage
    ({ reply := some ⟨s.trace.length + 1 + hs.length, .handle h⟩ } :: ts) u)
include hu

theorem State.EmitProgress.handleAnswered : u.Answered (.handle h) :=
  hu.answered nofun (by rw [requestsTo_length]; omega)

/-- A handle stored goes behind those before it. -/
theorem State.EmitProgress.handles_append (hk : hs.length < s.segCount) :
    (handleStored h u.turnTaken).handles.toList.take (hs ++ [h]).length = hs ++ [h] ∧
      (handleStored h u.turnTaken).emitIdx.toNat = (hs ++ [h]).length := by
  have hbound : u.turnTaken.emitIdx.toNat < 384 := hu.emitIdx.trans_lt (hk.trans_le (segCount_le s))
  have htake := take_handles_handleStored h hbound
  rw [State.turnTaken_emitIdx, hu.emitIdx, State.turnTaken_handles, hu.handles] at htake
  rw [List.length_append, List.length_singleton]
  exact ⟨htake, (emitIdx_handleStored h hbound).trans (congrArg (· + 1) hu.emitIdx)⟩

theorem State.EmitProgress.handle_more (h0 : 0 ≤ h.toInt) (hk : hs.length + 1 < s.segCount) :
    ∃ v, step u = .next v ∧
      s.EmitProgress (s.requestsTo ((hs ++ [h]).length + 1)) (hs ++ [h]) .waitStage ts v := by
  have hstep := step_handle hu.emitPhase hu.handleAnswered
  have hcount : u.turnTaken.segCount = s.segCount := hu.segCount
  have hmore : u.turnTaken.emitIdx.toNat + 1 < u.turnTaken.segCount := by
    rwa [State.turnTaken_emitIdx, hu.emitIdx, hcount]
  rw [stageAnswered_of_more h0 hmore] at hstep
  obtain ⟨hkept, hport⟩ := hu.keeps_of_step hu.handleAnswered hstep
  obtain ⟨hhandles, hidx⟩ := hu.handles_append (Nat.lt_of_succ_lt hk)
  refine ⟨_, hstep, hkept, hport, congrArg List.tail hu.turns, ?trace, hhandles, hidx, hu.emitPhase, hu.emitDone⟩
  have hpay : u.turnTaken.payload (u.turnTaken.emitIdx.toNat + 1) = s.payload (hs.length + 1) := by
    rw [State.turnTaken_emitIdx, hu.emitIdx]
    exact hu.payload _
  rw [List.length_append, List.length_singleton, requestsTo_succ, ← List.append_assoc, ← hu.trace, ← hpay]
  rfl

theorem State.EmitProgress.handle_last (h0 : 0 ≤ h.toInt) (hk : hs.length + 1 = s.segCount) :
    ∃ v, step u = .next v ∧
      s.EmitProgress (s.requestsTo s.segCount ++ [.transmit (hs ++ [h])]) (hs ++ [h]) .waitTx ts v := by
  have hstep := step_handle hu.emitPhase hu.handleAnswered
  have hcount : u.turnTaken.segCount = s.segCount := hu.segCount
  have hlast : u.turnTaken.emitIdx.toNat + 1 = u.turnTaken.segCount := by
    rwa [State.turnTaken_emitIdx, hu.emitIdx, hcount]
  obtain ⟨hhandles, hidx⟩ := hu.handles_append (Nat.lt_of_succ_le hk.le)
  have hlen : u.turnTaken.segCount = (hs ++ [h]).length := by
    rw [← hlast, State.turnTaken_emitIdx, hu.emitIdx, List.length_append, List.length_singleton]
  rw [stageAnswered_of_last h0 hlast, hlen, hhandles] at hstep
  obtain ⟨hkept, hport⟩ := hu.keeps_of_step hu.handleAnswered hstep
  refine ⟨_, hstep, hkept, hport, congrArg List.tail hu.turns, ?trace, hhandles, hidx, rfl, hu.emitDone⟩
  rw [← hk, ← List.append_assoc, ← hu.trace]
  rfl

end

end

/-! Runs of answers, the newest step last. -/

/-- A run with one step more at its end. -/
theorem run_add_one {n : Nat} {s t u : State} (h : Sys2Proof.core.run n s = .next t) (hstep : step t = .next u) :
    Sys2Proof.core.run (n + 1) s = .next u := by
  induction n generalizing s with
  | zero =>
    cases h
    exact run_succ 0 hstep
  | succ n ih =>
    obtain ⟨v, hfirst, hrest⟩ := run_succ_next h
    rw [run_succ _ hfirst, ih hrest]

/-- The turns that answer `hs` to the requests numbered from `n` on. -/
def handleTurns (n : Nat) (hs : List Word) : List Turn :=
  hs.zipIdx.map (fun p => { reply := some ⟨n + p.2, .handle p.1⟩ })

theorem handleTurns_concat_append (n : Nat) (hs : List Word) (h : Word) (ts : List Turn) :
    handleTurns n (hs ++ [h]) ++ ts = handleTurns n hs ++ { reply := some ⟨n + hs.length, .handle h⟩ } :: ts := by
  simp [handleTurns, List.zipIdx_append]

/-- EMIT accepted, `reset` acknowledged and the handles `hs`, fewer than the schedule's segments, answered: the core
waits on the `stage` of the segment behind them. By induction on the handles, the last one taken off. -/
theorem run_emit_handles {s : State} {ws hs : List Word} {ts : List Turn} (hb : s.busy = false) (hv : s.schedV = true)
    (hport : s.port = 5#32 :: ws) (hk : hs.length < s.segCount) (h0 : ∀ h ∈ hs, 0 ≤ h.toInt)
    (hts : s.turns = { reply := none } :: { reply := some ⟨s.trace.length, .ack⟩ } ::
      (handleTurns (s.trace.length + 1) hs ++ ts)) :
    ∃ u : State, Sys2Proof.core.run (hs.length + 2) s = .next u ∧
      s.EmitProgress (s.requestsTo (hs.length + 1)) hs .waitStage ts u := by
  induction hs using List.reverseRecOn generalizing ts with
  | nil =>
    obtain ⟨u, haccept, hu⟩ := emitProgress_accepted hb hv hport hts rfl
    obtain ⟨v, hack, hprogress⟩ := hu.ack
    exact ⟨v, (run_succ 1 haccept).trans (run_succ 0 hack), hprogress⟩
  | append_singleton hs h ih =>
    rw [List.length_append, List.length_singleton] at hk
    rw [handleTurns_concat_append] at hts
    obtain ⟨u, hrun, hu⟩ := ih (Nat.lt_of_succ_lt hk) (fun g hg => h0 g (List.mem_append_left _ hg)) hts
    obtain ⟨v, hstep, hprogress⟩ := hu.handle_more (h0 h List.mem_concat_self) hk
    refine ⟨v, ?run, hprogress⟩
    rw [List.length_append, List.length_singleton]
    exact run_add_one hrun hstep

/-! The requests of an EMIT in terms of `Segments(r)` (R152, R178). -/

theorem segments_take {r k : Nat} (hk : k ≤ 3 * r + 3) : (segments r).take k = (List.range k).map (segmentAt r) := by
  apply List.ext_getElem?
  intro j
  by_cases hj : j < k
  · rw [List.getElem?_take_of_lt hj, segments_getElem? (hj.trans_le hk)]
    simp [hj]
  · simp [hj]

theorem requestsTo_of_schedR {s : State} {r k : Nat} (hr : s.schedR.toInt = r) (hk : k ≤ 3 * r + 3) :
    s.requestsTo k = .reset :: ((segments r).take k).map (fun kind => .stage (dur s.cfg.params.timing s.data kind)) := by
  rw [State.requestsTo, segments_take hk, List.map_map]
  exact congrArg _ (List.map_congr_left fun j _ => congrArg _ (payload_of_schedR hr j))

/-- The payloads staged by a whole EMIT, one after the other, are its schedule (R178). -/
theorem stagedPayloads_flatten (tm : Timing) (data : DataSegment) (r : Nat) (hs : List Word) :
    (stagedPayloads (.reset :: ((segments r).map (fun kind => .stage (dur tm data kind)) ++ [.transmit hs]))).flatten =
      schedule tm data r := by
  simp [stagedPayloads, schedule, List.filterMap_map, List.flatMap_def]

/-- Settles O46: the run up to segment `k`'s `stage`, then its failure. -/
theorem failedEmitStopsAtTheFailingInstance : Obligations.FailedEmitStopsAtTheFailingInstance := by
  intro s ws r hs code later hb hv hr hport hk h0 hneg hts
  obtain ⟨u, hrun, hu⟩ := run_emit_handles hb hv hport (hk.trans_eq (segCount_of_schedR hr).symm) h0 hts
  have hstep := step_handle hu.emitPhase hu.handleAnswered
  rw [stageAnswered_of_neg hneg] at hstep
  refine ⟨_, run_add_one hrun hstep, ?trace, hu.handles, hu.emitIdx, rfl, hu.emitDone, rfl, rfl, rfl, ?port,
    congrArg List.tail hu.turns⟩
  case trace => rw [stageFailed_trace, State.turnTaken_trace, hu.trace, requestsTo_of_schedR hr hk]
  case port => rw [stageFailed_port, State.turnTaken_port, hu.port, hport, List.tail_cons]

/-- Settles O45: the run up to the last segment's `stage`, its handle, then the status. -/
theorem wholeEmitTransmitsTheSchedule : Obligations.WholeEmitTransmitsTheSchedule := by
  intro s ws r hs st later hb hv hr hport hlen h0 hts
  have hcount := segCount_of_schedR hr
  rcases List.eq_nil_or_concat' hs with rfl | ⟨init, h, rfl⟩
  · simp at hlen
  rw [List.length_append, List.length_singleton] at hlen
  obtain ⟨u, hrun, hu⟩ := run_emit_handles hb hv hport (by omega) (fun g hg => h0 g (List.mem_append_left _ hg))
    (hts.trans (congrArg (_ :: _ :: ·) (handleTurns_concat_append _ init h _)))
  obtain ⟨v, hlast, hw⟩ := hu.handle_last (h0 h List.mem_concat_self) (hlen.trans hcount.symm)
  have ha : v.Answered (.status st) := hw.answered nofun (by
    rw [List.length_append, requestsTo_length, hcount, List.length_singleton]; omega)
  have hsteps : 3 * r + 6 = init.length + 2 + 1 + 1 := by omega
  have hhandles := hw.handles
  have hidx := hw.emitIdx
  rw [List.length_append, List.length_singleton, hlen] at hhandles hidx
  refine ⟨transmitAnswered st v.turnTaken, hsteps ▸ run_add_one (run_add_one hrun hlast) (step_status hw.emitPhase ha),
    ⟨_, ?trace, rfl, stagedPayloads_flatten _ _ _ _⟩, hhandles, hidx, rfl, rfl, rfl, rfl, ?port,
    congrArg List.tail hw.turns⟩
  case trace =>
    rw [transmitAnswered_trace, State.turnTaken_trace, hw.trace, hcount, requestsTo_of_schedR hr le_rfl,
      List.take_of_length_le (segments_length r).le, List.cons_append]
  case port => rw [transmitAnswered_port, State.turnTaken_port, hw.port, hport, List.tail_cons]

end Sys2Proof.Machine
end

section
/-! Proofs of 60_exceptions.md: what an idle core and an ignored answer leave alone (R207 (b), R216), and when ERR and
ERR_SEEN are written (R201 to R204). -/

namespace Sys2Proof.Machine

/-- Settles O9: the idle step looks at no answer and only takes the turn. -/
theorem idleMachineKeepsAllItsState : Obligations.IdleMachineKeepsAllItsState := fun _ hb hp hr => step_idle hr hb hp

/-! An ignored answer. The step is compared with that of the state in which the same turn brings nothing. -/

/-- `s` with nothing arriving in its next step. -/
def State.silenced (s : State) : State := { s with turns := {} :: s.turns.tail }

/-- A core that is not busy serves its port, whatever answer arrives (R207 (b)). -/
theorem step_ready {s : State} (hr : s.turnNow.reset = false) (hb : s.busy = false) : step s = servePort s.turnTaken := by
  rw [step, takeTurn, playTurn, if_neg (by simp [hr]), busy_turnTaken, if_neg (by simp [hb])]

/-- An answer that a waiting core would not act on might as well not arrive. -/
theorem step_eq_step_silenced {s : State} (hr : s.turnNow.reset = false)
    (hwait : s.busy = true → awaitAnswer s.turnNow.reply s.turnTaken = s.turnTaken) : step s = step s.silenced := by
  cases hb : s.busy with
  | true =>
    have hsilent : step s.silenced = .next s.turnTaken := step_waits hb rfl rfl
    rw [step_busy hr hb, hwait hb, hsilent]
  | false =>
    have hsilent : step s.silenced = servePort s.turnTaken := step_ready rfl hb
    rw [step_ready hr hb, hsilent]

theorem takeReply_of_not_outstanding {s : State} {rp : Reply} (h : s.outstanding ≠ some rp.req) : takeReply rp s = s :=
  if_neg h

/-- An answer of a kind that the phase does not wait for changes nothing. -/
theorem takeAnswer_of_other_kind {a : Answer} {s : State} (hack : s.emitPhase = .waitReset → a ≠ .ack)
    (hhandle : s.emitPhase = .waitStage → ∀ h, a ≠ .handle h) (hstatus : s.emitPhase = .waitTx → ∀ st, a ≠ .status st) :
    takeAnswer a s = s := by
  rcases takeAnswer_cases a s with hsame | ⟨hp, ha, -⟩ | ⟨h, hp, ha, -⟩ | ⟨h, hp, ha, -⟩ | ⟨h, hp, ha, -⟩ | ⟨st, hp, ha, -⟩
  · exact hsame
  · exact absurd ha (hack hp)
  · exact absurd ha (hhandle hp h)
  · exact absurd ha (hhandle hp h)
  · exact absurd ha (hhandle hp h)
  · exact absurd ha (hstatus hp st)

theorem takeReply_eq_self_of_takeAnswer {rp : Reply} {s : State} (h : takeAnswer rp.answer s = s) : takeReply rp s = s := by
  rw [takeReply, h, ite_self]

/-- Settles O13: a waiting core passes over an answer to another request and one of another kind. -/
theorem answerToNoOutstandingRequestIsIgnored : Obligations.AnswerToNoOutstandingRequestIsIgnored := by
  intro s rp hr hrp
  have hignored : takeReply rp s.turnTaken = s.turnTaken → step s = step s.silenced := fun hsame =>
    step_eq_step_silenced hr fun _ => by rw [hrp]; exact hsame
  constructor
  · intro hout
    exact hignored (takeReply_of_not_outstanding hout)
  · intro hack hhandle hstatus
    exact hignored (takeReply_eq_self_of_takeAnswer (takeAnswer_of_other_kind hack hhandle hstatus))

/-! Rejected commands (R202, R203). -/

/-- A rejected command only raises its code (R151, R158, R183). -/
theorem exec_of_rejects {i : Instr} {s : State} (h : s.Rejects i) : ∃ c, exec i s = .next (s.raise c) ∧
    ((∃ rep, i = .sequence rep ∧ (c = .negRepeat ∨ c = .nodata)) ∨ (i = .emit ∧ c = .nosched)) := by
  cases i with
  | encode | checksum | translate => exact h.elim
  | sequence rep =>
    rcases lt_or_ge rep.toInt 0 with hneg | hrep
    · exact ⟨_, exec_sequence_of_neg hneg s, .inl ⟨rep, rfl, .inl rfl⟩⟩
    · have hdata : s.dataV = false := h.resolve_left hrep.not_gt
      exact ⟨_, exec_sequence_of_dataV_false hrep hdata, .inl ⟨rep, rfl, .inr rfl⟩⟩
  | emit => exact ⟨_, exec_emit_of_schedV_false h, .inr ⟨rfl, rfl⟩⟩

/-- Whether a command is rejected does not depend on the turn or on the words behind it. -/
theorem rejects_offered (s : State) (ws : List Word) (i : Instr) : (s.turnTaken.withPort ws).Rejects i ↔ s.Rejects i := by
  cases i <;> exact Iff.rfl

/-- A command that is not rejected leaves ERR_SEEN alone, and clears ERR unless it is EMIT, which keeps it (R204). -/
theorem exec_err_of_not_rejects {i : Instr} {s t : State} (hn : ¬s.Rejects i) (h : exec i s = .next t) :
    t.errSeen = s.errSeen ∧ (t.err = .none ∨ (i = .emit ∧ t.err = s.err)) := by
  rcases exec_cases h with ⟨_, _, _, _, _, -, rfl⟩ | ⟨-, rfl⟩ | ⟨-, rfl⟩ | ⟨_, -, -, -, rfl⟩ | ⟨hi, -, rfl⟩ | ⟨_, ⟨-, hrej⟩, -⟩
  case inr.inr.inr.inr.inl => exact ⟨rfl, .inr ⟨hi, rfl⟩⟩
  case inr.inr.inr.inr.inr => exact absurd hrej hn
  all_goals exact ⟨rfl, .inl rfl⟩

/-- The host sees a raised code in STATUS only (R202). -/
theorem hostRead_raise {a : Addr} (ha : a.toNat ≠ 0) (c : ErrCode) (s : State) : hostRead a (s.raise c) = hostRead a s := by
  refine hostRead_congr a (fun _ => ?low) (fun _ _ => rfl) rfl (fun _ _ => rfl) (fun _ _ => rfl)
  exact readLow_congr _ (absurd · ha) (fun _ => rfl) (fun _ => rfl) (fun _ => rfl) (fun _ => rfl) (fun _ => rfl)
    (fun _ => rfl) (fun _ => rfl)

/-- Settles O36: a command that is not rejected writes no code, so this one only raised its own. -/
theorem rejectionWritesOnlyErrAndErrSeen : Obligations.RejectionWritesOnlyErrAndErrSeen := by
  intro i s t hex herr hown
  by_cases hrej : s.Rejects i
  · obtain ⟨c, hraise, hcode⟩ := exec_of_rejects hrej
    obtain rfl : s.raise c = t := Host.Outcome.next.inj (hraise.symm.trans hex)
    exact ⟨rfl, fun a ha => hostRead_raise ha c s, hcode⟩
  · obtain ⟨-, hnone | ⟨rfl, -⟩⟩ := exec_err_of_not_rejects hrej hex
    · exact absurd hnone herr
    · exact absurd (hown.resolve_left (absurd rfl)) hrej

/-! ERR and ERR_SEEN over a step (R201, R204). -/

/-- What an answer does to STATUS.ERR: it is kept, or the EMIT ends, with ERR cleared or with a staging failure recorded
(R173, R175). -/
theorem takeAnswer_err (a : Answer) (s : State) :
    ((takeAnswer a s).errSeen = s.errSeen ∧ (takeAnswer a s).err = s.err) ∨
    ((takeAnswer a s).busy = false ∧ (takeAnswer a s).errSeen = s.errSeen ∧ (takeAnswer a s).err = .none) ∨
    ((takeAnswer a s).busy = false ∧ s.emitPhase = .waitStage ∧ ∃ h, a = .handle h ∧ h.toInt < 0) := by
  rcases takeAnswer_cases a s with ht | ⟨-, -, ht⟩ | ⟨h, hp, ha, hneg, ht⟩ | ⟨_, -, -, -, -, ht⟩ | ⟨_, -, -, -, -, ht⟩ |
    ⟨_, -, -, ht⟩
  all_goals rw [ht]
  case inr.inr.inl => exact .inr (.inr ⟨rfl, hp, h, ha, hneg⟩)
  case inr.inr.inr.inr.inr => exact .inr (.inl ⟨rfl, rfl, rfl⟩)
  all_goals exact .inl ⟨rfl, rfl⟩

/-- An EMIT that goes on keeps ERR as it was (R204). -/
theorem step_err_of_busy {s t : State} (hs : step s = .next t) (hb : s.busy = true) (hbt : t.busy = true) : t.err = s.err := by
  rcases step_cases hs with ⟨-, rfl⟩ | ⟨-, -, rfl⟩ | ⟨a, -, rfl⟩ | ⟨-, hidle, -⟩ | ⟨_, _, ⟨hidle, -⟩, -⟩
  · cases hbt
  · rfl
  · rcases takeAnswer_err a s.turnTaken with ⟨-, hkept⟩ | ⟨hend, -⟩ | ⟨hend, -⟩
    · exact hkept
    · rw [hend] at hbt; cases hbt
    · rw [hend] at hbt; cases hbt
  · rw [hidle] at hb; cases hb
  · rw [hidle] at hb; cases hb

/-- An accepted word that is illegal or rejected raises a code, and its step does nothing else (R77, R202). -/
theorem step_of_rejected_word {s : State} {w : Word} {ws : List Word} (hacc : s.Accepts w ws)
    (h : IllegalWord w ∨ ∃ i, decode w = .ok i ∧ s.Rejects i) :
    ∃ c, c ≠ .none ∧ step s = .next (State.raise c (s.turnTaken.withPort ws)) := by
  rw [step_accept hacc]
  rcases h with hill | ⟨i, hd, hrej⟩
  · exact ⟨.illegal, nofun, acceptWord_of_illegal hill _⟩
  · obtain ⟨c, hraise, hcode⟩ := exec_of_rejects ((rejects_offered s ws i).mpr hrej)
    refine ⟨c, ?_, (acceptWord_of_ok hd _).trans hraise⟩
    rcases hcode with ⟨_, -, rfl | rfl⟩ | ⟨-, rfl⟩ <;> nofun

/-- A step with a cause to record an error code records one, STAGE_FAIL during an EMIT (R201). -/
theorem step_err_of_recordsError {s t : State} (hs : step s = .next t) (h : s.RecordsError) :
    t.errSeen = true ∧ t.err ≠ .none ∧ (s.busy = true → t.err = .stageFail) := by
  rcases h with ⟨w, ws, hacc, hcause⟩ | ⟨hp, h, hneg, hans⟩
  · obtain ⟨c, hc, hraise⟩ := step_of_rejected_word hacc hcause
    obtain rfl := Host.Outcome.next.inj (hraise.symm.trans hs)
    exact ⟨rfl, hc, fun hb => by rw [hacc.1] at hb; cases hb⟩
  · have hfail : step s = .next (stageFailed h s.turnTaken) := by rw [step_handle hp hans, stageAnswered_of_neg hneg]
    obtain rfl := Host.Outcome.next.inj (hfail.symm.trans hs)
    exact ⟨rfl, nofun, fun _ => rfl⟩

/-- A step without such a cause and without reset records none. -/
theorem step_err_of_not_recordsError {s t : State} (hs : step s = .next t) (hr : s.turnNow.reset = false)
    (hn : ¬s.RecordsError) : t.errSeen = s.errSeen ∧ (t.err = s.err ∨ t.err = .none) := by
  rcases step_cases hs with ⟨hreset, -⟩ | ⟨-, -, rfl⟩ | ⟨a, hans, rfl⟩ | ⟨-, -, -, rfl⟩ |
    ⟨w, ws, hacc, ⟨e, he, -⟩ | ⟨i, hd, hex⟩⟩
  · rw [hr] at hreset; cases hreset
  · exact ⟨rfl, .inl rfl⟩
  · rcases takeAnswer_err a s.turnTaken with ⟨hseen, hkept⟩ | ⟨-, hseen, hnone⟩ | ⟨-, hp, h, rfl, hneg⟩
    · exact ⟨hseen, .inl hkept⟩
    · exact ⟨hseen, .inr hnone⟩
    · exact absurd (.inr ⟨hp, h, hneg, hans⟩) hn
  · exact ⟨rfl, .inl rfl⟩
  · have hill : IllegalWord w := (decoderRefusesExactlyIllegalWords w).mp ⟨e, he⟩
    exact absurd (.inl ⟨w, ws, hacc, .inl hill⟩) hn
  · have hlegal : ¬(s.turnTaken.withPort ws).Rejects i := fun hrej =>
      hn (.inl ⟨w, ws, hacc, .inr ⟨i, hd, (rejects_offered s ws i).mp hrej⟩⟩)
    obtain ⟨hseen, hnone | ⟨-, hkept⟩⟩ := exec_err_of_not_rejects hlegal hex
    · exact ⟨hseen, .inr hnone⟩
    · exact ⟨hseen, .inl hkept⟩

/-- Settles O52: ERR_SEEN is set where an error is recorded and kept where none is. -/
theorem errSeenIsStickyAndErrHoldsDuringAnEmit : Obligations.ErrSeenIsStickyAndErrHoldsDuringAnEmit := by
  intro s t hs hr
  refine ⟨fun hseen => ?sticky, step_err_of_busy hs, step_err_of_recordsError hs, step_err_of_not_recordsError hs hr⟩
  by_cases h : s.RecordsError
  · exact (step_err_of_recordsError hs h).1
  · exact (step_err_of_not_recordsError hs hr h).1.trans hseen

end Sys2Proof.Machine
end

section
/-! Proofs of 70_reset_and_hazards.md §1: the state after reset meets the invariant (R234), and a reset leaves the requests
issued before it without a listener (R231). -/

namespace Sys2Proof.Machine

theorem applyReset_afterReset (c : Cfg) : (State.afterReset c).applyReset = State.afterReset c := rfl

/-- The state after reset is its own reset, whatever the configuration. -/
theorem Inv_afterReset (c : Cfg) : (State.afterReset c).Inv := applyReset_afterReset c ▸ Inv_applyReset (State.afterReset c)

/-- Settles O48: the state after reset, in the build's configuration and in every other. -/
theorem resetMeetsTheInvariant : Obligations.ResetMeetsTheInvariant := ⟨Inv_afterReset Config.cfg, Inv_afterReset⟩

/-! Late answers. A request is numbered by its place in the trace, and no step shortens the trace; so once the core has
stopped waiting, it waits again only for a request that is numbered later. -/

/-- A command that requests nothing does not start an EMIT (R170). -/
theorem exec_keepsPhase_or_requests {i : Instr} {s t : State} (h : exec i s = .next t) :
    t.emitPhase = s.emitPhase ∨ t.trace = s.trace ++ [.reset] := by
  rcases exec_cases h with ⟨_, _, _, _, _, -, rfl⟩ | ⟨-, rfl⟩ | ⟨-, rfl⟩ | ⟨_, -, -, -, rfl⟩ | ⟨-, -, rfl⟩ | ⟨_, -, rfl⟩
  case inr.inr.inr.inr.inl => exact .inr rfl
  all_goals exact .inl rfl

/-- An EMIT that begins in a step requests `reset` in that step (R170). -/
theorem step_trace_of_emit_begins {s t : State} (hs : step s = .next t) (hb : s.busy = false) (hbt : t.busy = true) :
    t.trace = s.trace ++ [.reset] := by
  rcases step_cases hs with ⟨-, rfl⟩ | ⟨-, hwait, -⟩ | ⟨_, ⟨hwait, -⟩, -⟩ | ⟨-, -, -, rfl⟩ |
    ⟨w, ws, -, ⟨_, -, rfl⟩ | ⟨i, -, hex⟩⟩
  · cases hbt
  · simp [hb] at hwait
  · simp [hb] at hwait
  · exact absurd (hbt.symm.trans hb) nofun
  · exact absurd (hbt.symm.trans hb) nofun
  · rcases exec_keepsPhase_or_requests hex with hkept | hrequested
    · exact absurd (hkept.trans (busy_eq_false.mp hb)) (busy_eq_true.mp hbt)
    · exact hrequested

/-- No step takes a request back (R178). -/
theorem step_trace_length_le {s t : State} (hs : step s = .next t) : s.trace.length ≤ t.trace.length := by
  rcases requestsAreIssuedOneAtATimeInOrder s t hs with htrace | ⟨htrace, -⟩ | ⟨_, htrace, -⟩ | ⟨_, htrace, -⟩
  all_goals simp [htrace]

/-- `n` requests have been issued, and the core waits for none of those. -/
def State.DoneWith (n : Nat) (s : State) : Prop := n ≤ s.trace.length ∧ (s.busy = true → n < s.trace.length)

theorem doneWith_of_not_busy {s : State} (h : s.busy = false) : s.DoneWith s.trace.length :=
  ⟨le_rfl, fun hb => absurd (hb.symm.trans h) nofun⟩

theorem outstanding_ne_of_doneWith {n k : Nat} {s : State} (h : s.DoneWith n) (hk : k < n) : s.outstanding ≠ some k := by
  cases hb : s.busy with
  | false => rw [outstanding_of_not_busy hb]; nofun
  | true =>
    have hlater : n < s.trace.length := h.2 hb
    rw [State.outstanding, if_pos hb, ne_eq, Option.some_inj]
    omega

theorem step_keeps_doneWith {n : Nat} (s t : State) (h : s.DoneWith n) (hs : step s = .next t) : t.DoneWith n := by
  obtain ⟨hissued, hwaits⟩ := h
  have hgrows := step_trace_length_le hs
  refine ⟨hissued.trans hgrows, fun hbt => ?_⟩
  cases hb : s.busy with
  | true => exact (hwaits hb).trans_le hgrows
  | false =>
    rw [step_trace_of_emit_begins hs hb hbt, List.length_append, List.length_singleton]
    exact Nat.lt_succ_of_le hissued

/-- Settles O12: the reset step leaves an idle core with the trace as it was, so every state after it is done with the
requests of that trace, and an answer to one of them answers no outstanding request. -/
theorem resetEndsAnEmitAndItsLateAnswersAreIgnored : Obligations.ResetEndsAnEmitAndItsLateAnswersAreIgnored := by
  intro s hr
  have hreset := step_reset hr
  refine ⟨⟨_, hreset, rfl, rfl, rfl⟩, fun k u rp hrun hlate hru hreply => ?_⟩
  rw [run_succ k hreset] at hrun
  have hstart : s.turnTaken.applyReset.DoneWith s.trace.length := doneWith_of_not_busy (s := s.turnTaken.applyReset) rfl
  have hdone : u.DoneWith s.trace.length := run_keeps _ step_keeps_doneWith k _ u hstart hrun
  exact (answerToNoOutstandingRequestIsIgnored u rp hru hreply).1 (outstanding_ne_of_doneWith hdone hlate)

end Sys2Proof.Machine
end
